-- ==== Sys2Proof/Word.lean ====
section
/-! DEFINITION. The word types of the GF256-RS unit (00_scope.md R10, R11, R12, R14). -/

namespace Sys2Proof

/-- An 8-bit datum: a buffer entry, RESULT, an operand field (R10). -/
abbrev Byte := BitVec 8

/-- A 32-bit word: a command word, or the data of one port access (R10). -/
abbrev Word := BitVec 32

/-- The integer form of a field element, 0..255, held in 8 bits (R11, R12). -/
abbrev GfValue := BitVec 8

/-- The discrete-log form of a non-zero element: an exponent 0..254 of α = 2 (R12). It is a type apart from
`GfValue`, and its addition is addition modulo 255 (40_gf_arith.md R83). -/
abbrev GfExponent := Fin 255

end Sys2Proof
end

