-- ==== Sys2Proof/Syntax.lean ====
section
/-! DEFINITION. The command set: one constructor for each row of spec/opcode_table.json (30_encoding.md R66). -/

namespace Sys2Proof

/-- The eight assigned opcodes (R66). -/
inductive Opcode where
  | nop
  | gfExp
  | gfLog
  | gfMul
  | gfAdd
  | rsGen
  | rsDiv
  | rsSyn
deriving DecidableEq, Repr

/-- A command with its operands. Every operand is an immediate value as wide as its field (R65), so every term has an
encoding. -/
inductive Instr where
  /-- NOP (40_gf_arith.md R75). -/
  | nop
  /-- GF.EXP: RESULT <- α^a, where `a` is an exponent field, 0..255 (R76). -/
  | gfExp (a : Byte)
  /-- GF.LOG: RESULT <- log_α a (R77). -/
  | gfLog (a : GfValue)
  /-- GF.MUL: RESULT <- a ⊗ b (R79). -/
  | gfMul (a b : GfValue)
  /-- GF.ADD: RESULT <- a ⊕ b (R81). -/
  | gfAdd (a b : GfValue)
  /-- RS.GEN: the generator polynomial of degree `n` (41_reed_solomon.md R88). -/
  | rsGen (n : Byte)
  /-- RS.DIV: the EC codewords of `k` data codewords (R92). -/
  | rsDiv (k : BitVec 16)
  /-- RS.SYN: `n` syndromes of the first `l` codewords of MSG (R96). -/
  | rsSyn (n : Byte) (l : BitVec 16)
deriving DecidableEq, Repr

/-- The opcode of a command. -/
def Instr.opcode : Instr → Opcode
  | .nop => .nop
  | .gfExp _ => .gfExp
  | .gfLog _ => .gfLog
  | .gfMul _ _ => .gfMul
  | .gfAdd _ _ => .gfAdd
  | .rsGen _ => .rsGen
  | .rsDiv _ => .rsDiv
  | .rsSyn _ _ => .rsSyn

end Sys2Proof
end

