-- ==== Sys2Proof/Decode.lean ====
section
/-! DEFINITION. Decoding and encoding of command words (30_encoding.md R62–R69). -/

namespace Sys2Proof

/-- Why a word is not a command (R67). -/
inductive DecodeError where
  /-- A reserved opcode (R68). -/
  | illegalOpcode
  /-- An assigned opcode with a non-zero bit in a reserved field (R69). -/
  | reservedField
deriving DecidableEq, Repr

/-! The fields of the two formats (R63, R64, R65). -/

/-- OPC, bits [31:24]. -/
def fieldOpc (w : Word) : Byte := w.extractLsb' 24 8

/-- A of format S, bits [23:16]. -/
def fieldA (w : Word) : Byte := w.extractLsb' 16 8

/-- B of format S, bits [15:8]. -/
def fieldB (w : Word) : Byte := w.extractLsb' 8 8

/-- N of format P, bits [23:16]. -/
def fieldN (w : Word) : Byte := w.extractLsb' 16 8

/-- K of format P, bits [15:0]. -/
def fieldK (w : Word) : BitVec 16 := w.extractLsb' 0 16

/-- The opcode map (R66). -/
def Opcode.byte : Opcode → Byte
  | .nop => 0x00
  | .gfExp => 0x01
  | .gfLog => 0x02
  | .gfMul => 0x03
  | .gfAdd => 0x04
  | .rsGen => 0x10
  | .rsDiv => 0x11
  | .rsSyn => 0x12

/-- The opcode map read the other way; `none` for a reserved opcode (R67, R68). -/
def Opcode.ofByte (b : Byte) : Option Opcode :=
  if b = 0x00 then some .nop
  else if b = 0x01 then some .gfExp
  else if b = 0x02 then some .gfLog
  else if b = 0x03 then some .gfMul
  else if b = 0x04 then some .gfAdd
  else if b = 0x10 then some .rsGen
  else if b = 0x11 then some .rsDiv
  else if b = 0x12 then some .rsSyn
  else none

/-- The bits that must be 0 (`resmask` of R67). -/
def Opcode.reservedMask : Opcode → Word
  | .nop => 0x00FFFFFF
  | .gfExp => 0x0000FFFF
  | .gfLog => 0x0000FFFF
  | .gfMul => 0x000000FF
  | .gfAdd => 0x000000FF
  | .rsGen => 0x0000FFFF
  | .rsDiv => 0x00FF0000
  | .rsSyn => 0x00000000

/-- The command of opcode `op` with its operands taken from `w` (R65). -/
def Opcode.operands (op : Opcode) (w : Word) : Instr :=
  match op with
  | .nop => .nop
  | .gfExp => .gfExp (fieldA w)
  | .gfLog => .gfLog (fieldA w)
  | .gfMul => .gfMul (fieldA w) (fieldB w)
  | .gfAdd => .gfAdd (fieldA w) (fieldB w)
  | .rsGen => .rsGen (fieldN w)
  | .rsDiv => .rsDiv (fieldK w)
  | .rsSyn => .rsSyn (fieldN w) (fieldK w)

/-- `decode` of R67: total on every word. -/
def decode (w : Word) : Except DecodeError Instr :=
  match Opcode.ofByte (fieldOpc w) with
  | none => .error .illegalOpcode
  | some op => if w &&& op.reservedMask ≠ 0 then .error .reservedField else .ok (op.operands w)

/-- A word of format S from its fields, the opcode in the top byte (R63). -/
def formatS (opc a b : Byte) : Word := opc ++ a ++ b ++ (0 : Byte)

/-- A word of format P from its fields (R64). -/
def formatP (opc n : Byte) (k : BitVec 16) : Word := opc ++ n ++ k

/-- The command word of a command, reserved fields 0 (R63, R64, R66). -/
def encode : Instr → Word
  | .nop => formatS 0x00 0 0
  | .gfExp a => formatS 0x01 a 0
  | .gfLog a => formatS 0x02 a 0
  | .gfMul a b => formatS 0x03 a b
  | .gfAdd a b => formatS 0x04 a b
  | .rsGen n => formatP 0x10 n 0
  | .rsDiv k => formatP 0x11 0 k
  | .rsSyn n l => formatP 0x12 n l

/-- What the decoder reads from the table's numbering of an instruction's bits. A command word is one 32-bit word written in one
access (R62), so the table's bit `i` is the word's bit `i`, and a number of more than 32 bits is no command word. -/
def decodeTableWord (nbits w : Nat) : Option Instr :=
  if w % 2 ^ nbits < 2 ^ 32 then
    match decode (BitVec.ofNat 32 (w % 2 ^ nbits)) with
    | .ok i => some i
    | .error _ => none
  else none

end Sys2Proof
end

