-- ==== Sys2Proof/Config.lean ====
section
/-! DEFINITION. What an implementation fixes and what the spec leaves free (92_eei_decisions.md, "Open parameters"). Every `opaque`
below is a value with no definition: nothing proved about the model can depend on which one it is. -/

namespace Sys2Proof

/-- The two open parameters of an implementation (00_scope.md R7, R8). -/
structure Params where
  /-- N_MAX, the largest generator degree and syndrome count (R7). -/
  nMax : Nat
  /-- MSG_DEPTH, the number of entries of MSG (R8). -/
  msgDepth : Nat
deriving DecidableEq, Repr

/-- The ranges of R7 and R8. -/
abbrev Params.Legal (p : Params) : Prop :=
  1 ≤ p.nMax ∧ p.nMax ≤ 254 ∧ p.nMax + 1 ≤ p.msgDepth ∧ p.msgDepth ≤ 4096

/-- The three buffers (10_state.md R30, R31, R32). -/
inductive Buffer where
  | gen
  | syn
  | msg
deriving DecidableEq, Repr

/-- By how much N_MAX falls short of 254, its largest value (R7): a free value, log entry 1. -/
opaque Config.nMaxShortfall : Fin 254

/-- What MSG_DEPTH is measured down from 4096 by, before it is brought into range (R8): a free value, log entry 1. -/
opaque Config.msgDepthShortfall : Nat

/-- N_MAX of the implementation: any value of 1..254 (R7). DESIGN CHOICE, safe: log entry 1. -/
def Config.nMax : Nat := 254 - Config.nMaxShortfall.val

/-- MSG_DEPTH of the implementation: any value of N_MAX + 1 .. 4096 (R8). DESIGN CHOICE, safe: log entry 1. -/
def Config.msgDepth : Nat := 4096 - Config.msgDepthShortfall % (4096 - Config.nMax)

/-- The implementation's parameters, what CONFIG reports (10_state.md R27). -/
def Config.params : Params := ⟨Config.nMax, Config.msgDepth⟩

/-- `ram_init` (92_eei_decisions.md D29; 10_state.md R33): what entry `i` of buffer `b` holds after the `r`-th reset until it
is written. A free value: log entry 2. -/
opaque Config.ramInit (r : Nat) (b : Buffer) (i : Nat) : Byte

/-- The word that the `d`-th draw gives to a read which R130 leaves unspecified. A free value: log entry 3. -/
opaque Config.busyRead (d : Nat) : Word

/-- LAT (00_scope.md R9; 70_reset_and_hazards.md R127) of a command accepted at the `d`-th draw: how many host moves fall
between its acceptance and its completion. A free value: log entry 4. -/
opaque Config.latency (d : Nat) : Nat

end Sys2Proof
end

