-- ==== Sys2Proof/Machine/State.lean ====
section
/-! DEFINITION. The state of the unit (10_state.md R17) and of its surroundings, the reasons to stop, and the state after
reset (70_reset_and_hazards.md R117). -/

namespace Sys2Proof.Machine

/-- The entries of one buffer that have been written since the last reset: pairs of an index and a byte, indexes strictly
rising. An entry that is not listed holds its reset value, which the spec leaves unspecified (10_state.md R33). -/
abbrev Memory := List Host.Cell

/-- The one canonical form of a buffer's contents: indexes strictly rise. -/
abbrev Memory.Wf (m : Memory) : Prop := m.Pairwise fun x y => x.1 < y.1

/-- Every listed index is below `n`. -/
abbrev Memory.Below (m : Memory) (n : Nat) : Prop := ∀ c ∈ m, c.1 < n

/-- The error codes of a rejection (60_exceptions.md R101–R107). -/
inductive ErrCode where
  | illegalOpcode
  | reservedField
  | logZero
  | badLength
  | noGenerator
  | busyCmd
  | busyMsg
deriving DecidableEq, Repr

/-- One access of the port, by word address (20_memory.md R41, R42). -/
inductive Access where
  | read (addr : BitVec 13)
  | write (addr : BitVec 13) (data : Word)
deriving DecidableEq, Repr

/-- A request at a byte-addressed bridge in front of the unit (R42, R53): a byte address, a width in bytes, and the data of a
write. `HostRead(a)` is `⟨a, 4, none⟩` and `HostWrite(a, v)` is `⟨a, 4, some v⟩`. -/
structure BridgeRequest where
  addr : Nat
  bytes : Nat
  data : Option Word
deriving DecidableEq, Repr

/-- What the spec puts outside the unit and asks a model to refuse by name (00_scope.md R3, R4, R5). -/
inductive OutsideRequest where
  | berlekampMassey
  | chienSearch
  | forney
  | gfDivision
  | gfInversion
  | otherPolynomial
  | otherFieldSize
  | blockInterleaving
  | encoderComponent
deriving DecidableEq, Repr

/-- One move of the surroundings. -/
inductive HostMove where
  /-- One clock edge of the port: the level of `rst`, and the access presented, if any (20_memory.md R41, 70_reset_and_hazards.md R116,
  R119). -/
  | cycle (rst : Bool) (access : Option Access)
  /-- An access by byte address through a bridge, `rst` low (20_memory.md R42, R53). -/
  | bridge (r : BridgeRequest)
  /-- The pseudo-instruction `wait`: read STATUS again and again until BUSY reads 0 (30_encoding.md R73). -/
  | wait
  /-- A request for something the unit does not have (00_scope.md R5). -/
  | outside (r : OutsideRequest)
deriving DecidableEq, Repr

/-- Why the machine stops with a fault. -/
inductive Fault where
  /-- Raised by the engine's completion step (Machine/Lifecycle.lean, `completion`) when PENDING holds a word that is not a command.
  70_reset_and_hazards.md R126 rules it out, and it happens in no state that meets `State.Inv`. Safe: log entry 7. -/
  | pendingNotCommand
deriving DecidableEq, Repr

/-- Why the machine gives no meaning. -/
inductive Refusal where
  /-- Raised by `exec` alone, for an instruction that has no meaning yet. Safe. -/
  | notModelled (mnemonic : String)
  /-- Raised by the bridge for a byte address that is no multiple of 4: 20_memory.md R53 asks for a refusal by name. Safe. -/
  | misalignedAccess
  /-- Raised by the bridge for an access that is not one whole word (R53). Safe. -/
  | subWordAccess
  /-- Raised by the bridge for a byte address above 0x7FFC, which the port cannot express (R42). Safe. -/
  | addressOutsidePort
  /-- Raised by `hostMove` for what the spec puts outside the unit (00_scope.md R5: "A model must refuse these by name"). Safe. -/
  | outsideUnit (r : OutsideRequest)
deriving DecidableEq, Repr

/-- Everything 10_state.md R17 gives the unit, the read data of the port, and the model's own fields. -/
structure State where
  /-- RESULT (R18). -/
  result : Byte
  /-- STATUS.BUSY (R20). -/
  busy : Bool
  /-- STATUS.ERR (R21). -/
  err : Bool
  /-- STATUS.ZERO (R22). -/
  zero : Bool
  /-- STATUS.GEN_VALID (R23). -/
  genValid : Bool
  /-- STATUS.ERRCODE (R24). -/
  errcode : BitVec 4
  /-- GEN_N (R26). -/
  genN : Byte
  /-- CONFIG, the constant register (R27), as the two parameters it reports. No step writes it. -/
  params : Params
  /-- PENDING (R29). -/
  pending : Word
  /-- GEN (R30). -/
  gen : Memory
  /-- SYN (R31). -/
  syn : Memory
  /-- MSG (R32). -/
  msg : Memory
  /-- `rdata` (20_memory.md R41): the word that the last read access returned. -/
  rdata : Word
  /-- The model's own: the host's moves still to come, first one first (R61). Log entry 5. -/
  host : List HostMove
  /-- The model's own: latencies already fixed for the next commands to be accepted. Log entry 4. -/
  plan : List Nat
  /-- The model's own: how many host moves still fall before the completion of the command in flight. Log entry 4. -/
  latLeft : Nat
  /-- The model's own: how many free values have been drawn. Log entry 3. -/
  draws : Nat
  /-- The model's own: how many reset edges there have been. Log entry 2. -/
  resets : Nat
deriving DecidableEq, Repr

/-- The unit right after reset (R117), with nothing for the host to do. -/
def State.reset : State where
  result := 0
  busy := false
  err := false
  zero := false
  genValid := false
  errcode := 0
  genN := 0
  params := Config.params
  pending := 0
  gen := []
  syn := []
  msg := []
  rdata := 0
  host := []
  plan := []
  latLeft := 0
  draws := 0
  resets := 0

end Sys2Proof.Machine
end

