-- ==== Sys2Proof/Machine/Flags.lean ====
section
/-! DEFINITION. The STATUS register: how ZERO is computed and how the word is put together (10_state.md R20–R25, 20_memory.md R44). -/

namespace Sys2Proof.Machine

/-- ZERO of the GF commands: the new RESULT is 0 (R22). -/
def zeroOf (v : Byte) : Bool := v == 0

/-- ZERO of RS.DIV and RS.SYN: every value written is 0 (R22). -/
def allZero (vs : List Byte) : Bool := vs.all zeroOf

/-- A flag as bit 0 of a word. -/
def flagBit (b : Bool) : Word := if b then 1 else 0

/-- The word a read of STATUS returns (R44); bits [7:4] and [31:12] are 0 (R25). -/
def statusWord (s : State) : Word :=
  (s.errcode.setWidth 32 <<< 8) ||| (flagBit s.genValid <<< 3) ||| (flagBit s.zero <<< 2) ||| (flagBit s.err <<< 1) |||
    flagBit s.busy

/-- The value of ERRCODE for a rejection (60_exceptions.md R101–R107). -/
def ErrCode.code : ErrCode → BitVec 4
  | .illegalOpcode => 1
  | .reservedField => 2
  | .logZero => 3
  | .badLength => 4
  | .noGenerator => 5
  | .busyCmd => 6
  | .busyMsg => 7

/-- The word a read of CONFIG returns (10_state.md R27): N_MAX in [7:0], MSG_DEPTH in [28:16], the rest 0. -/
def configWord (p : Params) : Word :=
  (BitVec.ofNat 13 p.msgDepth).setWidth 32 <<< 16 ||| (BitVec.ofNat 8 p.nMax).setWidth 32

end Sys2Proof.Machine
end

