-- ==== Sys2Proof/Machine/Ops.lean ====
section
/-! DEFINITION. The shared operations over registers and buffers, a rejection (the unit's only exception, 60_exceptions.md R98; there
is no return from one, R112), acceptance, and reset. -/

namespace Sys2Proof.Machine

/-! ### Buffers -/

/-- The byte listed for index `i`, if any. -/
def Memory.lookup : Memory → Nat → Option Byte
  | [], _ => none
  | (a, v) :: m, i => if a = i then some v else Memory.lookup m i

/-- `m` with entry `i` written, in canonical form. -/
def Memory.store : Memory → Nat → Byte → Memory
  | [], i, v => [(i, v)]
  | (a, b) :: m, i, v =>
    if i < a then (i, v) :: (a, b) :: m
    else if i = a then (i, v) :: m
    else (a, b) :: Memory.store m i v

/-- `m` with the entries `i`, `i + 1`, … written with the values of a list. -/
def Memory.storeRange : Memory → Nat → List Byte → Memory
  | m, _, [] => m
  | m, i, v :: vs => Memory.storeRange (Memory.store m i v) (i + 1) vs

/-- What entry `i` of a buffer holds: the byte last written, or the free reset value (10_state.md R33; log entry 2). -/
def Memory.entry (m : Memory) (r : Nat) (b : Buffer) (i : Nat) : Byte :=
  (m.lookup i).getD (Config.ramInit r b i)

/-- GEN[j] (R30). -/
def State.genEntry (s : State) (j : Nat) : Byte := s.gen.entry s.resets .gen j

/-- SYN[i] (R31). -/
def State.synEntry (s : State) (i : Nat) : Byte := s.syn.entry s.resets .syn i

/-- MSG[i] (R32). -/
def State.msgEntry (s : State) (i : Nat) : Byte := s.msg.entry s.resets .msg i

/-! ### Rejection and acceptance -/

/-- `raise Error(c)` (60_exceptions.md R98): ERR <- 1, ERRCODE <- c, and nothing else. -/
def reject (c : ErrCode) (s : State) : State := { s with err := true, errcode := c.code }

/-- The host's acknowledgement (20_memory.md R44): ERR <- 0, ERRCODE <- 0. -/
def clearErr (s : State) : State := { s with err := false, errcode := 0 }

/-- LAT of the next command to be accepted (00_scope.md R9): one that is already fixed, else a free value. Log entry 4. -/
def nextLatency (s : State) : Nat := s.plan.headD (Config.latency s.draws)

/-- `accept(w)` (70_reset_and_hazards.md R125): PENDING <- w, BUSY <- 1. The model's own fields take the command's latency. -/
def accept (w : Word) (s : State) : State :=
  { s with pending := w, busy := true, latLeft := nextLatency s, plan := s.plan.tail, draws := s.draws + 1 }

/-! ### What the commands write -/

/-- RESULT and ZERO of a GF command (40_gf_arith.md R74; 10_state.md R22). -/
def writeResult (v : Byte) (s : State) : State := { s with result := v, zero := zeroOf v }

/-- GEN, GEN_N and GEN_VALID of an RS.GEN of degree `n` with coefficients `g` (41_reed_solomon.md R88). -/
def writeGenerator (n : Byte) (g : List Byte) (s : State) : State :=
  { s with gen := s.gen.storeRange 0 g, genN := n, genValid := true }

/-- MSG[k..] and ZERO of an RS.DIV (R92). -/
def writeEc (k : Nat) (ec : List Byte) (s : State) : State :=
  { s with msg := s.msg.storeRange k ec, zero := allZero ec }

/-- SYN[0..] and ZERO of an RS.SYN (R96). -/
def writeSyndromes (v : List Byte) (s : State) : State :=
  { s with syn := s.syn.storeRange 0 v, zero := allZero v }

/-- A host write of MSG[i] (20_memory.md R49). -/
def writeMsg (i : Nat) (v : Byte) (s : State) : State := { s with msg := s.msg.store i v }

/-- A command with its operand check in front (70_reset_and_hazards.md R124): rejected with the check's code, or carried out. -/
def perform (check : Option ErrCode) (effect : State → State) (s : State) : State :=
  match check with
  | some c => reject c s
  | none => effect s

/-! ### Reset and time -/

/-- A clock edge with `rst` = 1 (70_reset_and_hazards.md R117, R118). The buffers' contents become unspecified: nothing is listed
and the free reset values are those of a new reset. -/
def applyReset (s : State) : State :=
  { s with
    result := 0, busy := false, err := false, zero := false, genValid := false, errcode := 0, genN := 0, pending := 0,
    gen := [], syn := [], msg := [], latLeft := 0, resets := s.resets + 1 }

/-- One host move of the latency has passed (70_reset_and_hazards.md R127). -/
def tick (s : State) : State := { s with latLeft := s.latLeft - 1 }

end Sys2Proof.Machine
end

