-- ==== Sys2Proof/Machine/Operands.lean ====
section
/-! DEFINITION. The operands that the RS commands read from the state (30_encoding.md R65), and the operand checks made at issue
(R70; 70_reset_and_hazards.md R124). -/

namespace Sys2Proof.Machine

/-! ### Implicit operands -/

/-- MSG[0..k-1]. -/
def msgPrefix (s : State) (k : Nat) : List Byte := (List.range k).map s.msgEntry

/-- GEN[0..GEN_N], the divisor of RS.DIV. -/
def generator (s : State) : List Byte := (List.range (s.genN.toNat + 1)).map s.genEntry

/-! ### Operand checks -/

/-- GF.LOG: the "not found" signal of the logarithm table is LOG_ZERO (40_gf_arith.md R77; 60_exceptions.md R103). -/
def gfLogCheck (a : GfValue) : Option ErrCode :=
  match logRom a with
  | none => some .logZero
  | some _ => none

/-- RS.GEN: BAD_LENGTH if n = 0 or n > N_MAX (41_reed_solomon.md R88). -/
def rsGenCheck (n : Byte) (s : State) : Option ErrCode :=
  if n = 0 ∨ n.toNat > s.params.nMax then some .badLength else none

/-- RS.DIV: NO_GENERATOR if GEN_VALID = 0, and only then BAD_LENGTH if k + GEN_N > MSG_DEPTH (R92). -/
def rsDivCheck (k : BitVec 16) (s : State) : Option ErrCode :=
  if s.genValid = false then some .noGenerator
  else if k.toNat + s.genN.toNat > s.params.msgDepth then some .badLength
  else none

/-- RS.SYN: BAD_LENGTH if n = 0, n > N_MAX or L > MSG_DEPTH (R96). -/
def rsSynCheck (n : Byte) (l : BitVec 16) (s : State) : Option ErrCode :=
  if n = 0 ∨ n.toNat > s.params.nMax ∨ l.toNat > s.params.msgDepth then some .badLength else none

/-- The operand check of every command (70_reset_and_hazards.md R124). -/
def operandCheck (i : Instr) (s : State) : Option ErrCode :=
  match i with
  | .nop => none
  | .gfExp _ => none
  | .gfLog a => gfLogCheck a
  | .gfMul _ _ => none
  | .gfAdd _ _ => none
  | .rsGen n => rsGenCheck n s
  | .rsDiv k => rsDivCheck k s
  | .rsSyn n l => rsSynCheck n l s

end Sys2Proof.Machine
end

