-- ==== Sys2Proof/Machine/Bus.lean ====
section
/-! DEFINITION. The slave port: the address map, reads, writes, and the handling of a CMD write (20_memory.md; 70_reset_and_hazards.md
R124–R131). -/

namespace Sys2Proof.Machine

/-- What a location of the address map is (20_memory.md §2). -/
inductive Target where
  | cmd
  | status
  | result
  | genN
  | config
  | gen (j : Nat)
  | syn (i : Nat)
  | msg (i : Nat)
  | reserved
deriving DecidableEq, Repr

/-- The address map by byte address (R43–R51). -/
def Target.ofByteAddr (p : Params) (b : Nat) : Target :=
  if b = 0x0000 then .cmd
  else if b = 0x0004 then .status
  else if b = 0x0008 then .result
  else if b = 0x000C then .genN
  else if b = 0x0010 then .config
  else if 0x0400 ≤ b ∧ b ≤ 0x0400 + 4 * p.nMax then .gen ((b - 0x0400) / 4)
  else if 0x0800 ≤ b ∧ b < 0x0800 + 4 * p.nMax then .syn ((b - 0x0800) / 4)
  else if 0x4000 ≤ b ∧ b < 0x4000 + 4 * p.msgDepth then .msg ((b - 0x4000) / 4)
  else .reserved

/-- The target of a word address: the byte address is four times it (R42). -/
def Target.ofAddr (p : Params) (a : BitVec 13) : Target := Target.ofByteAddr p (4 * a.toNat)

/-- The value a read of a target has, apart from the busy rule (R43–R51). -/
def Target.value (t : Target) (s : State) : Word :=
  match t with
  | .cmd => 0
  | .status => statusWord s
  | .result => s.result.setWidth 32
  | .genN => s.genN.setWidth 32
  | .config => configWord s.params
  | .gen j => (s.genEntry j).setWidth 32
  | .syn i => (s.synEntry i).setWidth 32
  | .msg i => (s.msgEntry i).setWidth 32
  | .reserved => 0

/-- The targets whose reads are unspecified while BUSY = 1 (70_reset_and_hazards.md R130, R131). -/
def Target.hiddenWhileBusy : Target → Bool
  | .result | .genN | .gen _ | .syn _ | .msg _ => true
  | .cmd | .status | .config | .reserved => false

/-- A read access: its word appears on `rdata`. Nothing else changes (20_memory.md R54), but for the count of free values drawn
when R130 leaves the word unspecified. -/
def hostRead (a : BitVec 13) (s : State) : State :=
  let t := Target.ofAddr s.params a
  if s.busy && t.hiddenWhileBusy then { s with rdata := Config.busyRead s.draws, draws := s.draws + 1 }
  else { s with rdata := t.value s }

/-- The error code of a word that is not a command (30_encoding.md R68, R69). -/
def DecodeError.errCode : DecodeError → ErrCode
  | .illegalOpcode => .illegalOpcode
  | .reservedField => .reservedField

/-- A CMD write (70_reset_and_hazards.md R124), with the priority of 60_exceptions.md R109. -/
def issue (w : Word) (s : State) : State :=
  if s.busy then reject .busyCmd s
  else
    match decode w with
    | .error e => reject (DecodeError.errCode e) s
    | .ok i => perform (operandCheck i s) (accept w) s

/-- A write access (20_memory.md R43–R51; 70_reset_and_hazards.md R128, R129, R131). -/
def hostWrite (a : BitVec 13) (v : Word) (s : State) : State :=
  match Target.ofAddr s.params a with
  | .cmd => issue v s
  | .status => if v.getLsbD 1 then clearErr s else s
  | .msg i => if s.busy then reject .busyMsg s else writeMsg i (v.setWidth 8) s
  | .result | .genN | .config | .gen _ | .syn _ | .reserved => s

/-- One access out of reset. -/
def performAccess (x : Access) (s : State) : State :=
  match x with
  | .read a => hostRead a s
  | .write a v => hostWrite a v s

/-- An access presented in a cycle with `rst` = 1 has no effect, and a read returns 0 (70_reset_and_hazards.md R119). DESIGN CHOICE, log
entry 17: that this holds of a read of CONFIG too, of which 10_state.md R27 says that it reads the same value "at all times, reset
included". -/
def accessInReset (x : Option Access) (s : State) : State :=
  match x with
  | some (.read _) => { s with rdata := 0 }
  | some (.write _ _) => s
  | none => s

/-- One clock edge of the port. -/
def portCycle (rst : Bool) (x : Option Access) (s : State) : State :=
  if rst then accessInReset x (applyReset s)
  else
    match x with
    | some x => performAccess x s
    | none => s

/-- The port access of a request at a byte-addressed bridge (20_memory.md R42), or the refusal by name that R53 asks for. -/
def BridgeRequest.access (r : BridgeRequest) : Except Refusal Access :=
  if r.bytes ≠ 4 then .error .subWordAccess
  else if r.addr % 4 ≠ 0 then .error .misalignedAccess
  else if r.addr > 0x7FFC then .error .addressOutsidePort
  else
    match r.data with
    | none => .ok (.read (BitVec.ofNat 13 (r.addr / 4)))
    | some v => .ok (.write (BitVec.ofNat 13 (r.addr / 4)) v)

/-- The word address of STATUS (R44). -/
def statusAddr : BitVec 13 := 1

/-- One poll of `wait` (30_encoding.md R73): read STATUS, and stay at the head of the host's moves while bit 0 of the value read
is 1. -/
def poll (s : State) : State :=
  let t := hostRead statusAddr s
  if t.rdata.getLsbD 0 then { t with host := .wait :: t.host } else t

/-- One host move, already taken from the front of the list. -/
def hostMove (m : HostMove) (s : State) : Host.Outcome State Fault Refusal :=
  match m with
  | .cycle rst x => .next (portCycle rst x s)
  | .bridge r =>
    match r.access with
    | .ok x => .next (performAccess x s)
    | .error e => .refused e
  | .wait => .next (poll s)
  | .outside r => .refused (.outsideUnit r)

end Sys2Proof.Machine
end

