-- ==== Sys2Proof/Machine/GfArith.lean ====
section
/-! DEFINITION. The meanings of NOP and the GF commands (40_gf_arith.md). A meaning is the command's whole rule: its operand check,
then its effect at completion. BUSY and PENDING are the lifecycle's (Machine/Lifecycle.lean). Log entry 6. -/

namespace Sys2Proof.Machine

/-- NOP writes no state (R75). -/
def execNop (s : State) : Host.Outcome State Fault Refusal := .next s

/-- GF.EXP: RESULT <- EXP_ROM[a mod 255] (R76). -/
def execGfExp (a : Byte) (s : State) : Host.Outcome State Fault Refusal :=
  .next (writeResult (expRom (Fin.ofNat 255 a.toNat)) s)

/-- GF.LOG: RESULT <- LOG_ROM[a]; the table's "not found" is a rejection with LOG_ZERO (R77). -/
def execGfLog (a : GfValue) (s : State) : Host.Outcome State Fault Refusal :=
  .next (match logRom a with
    | none => reject .logZero s
    | some e => writeResult (exponentByte e) s)

/-- GF.MUL: RESULT <- a ⊗ b (R79). -/
def execGfMul (a b : GfValue) (s : State) : Host.Outcome State Fault Refusal := .next (writeResult (gfMul a b) s)

/-- GF.ADD: RESULT <- a ⊕ b (R81). -/
def execGfAdd (a b : GfValue) (s : State) : Host.Outcome State Fault Refusal := .next (writeResult (gfAdd a b) s)

end Sys2Proof.Machine
end

