-- ==== Sys2Proof/Machine/Poly.lean ====
section
/-! DEFINITION. Polynomials over GF(256) as coefficient lists, highest degree first (00_scope.md R13), and the three algorithms of the
Reed-Solomon commands (41_reed_solomon.md R87, R90, R95). Their working lists are not state (R86). "Multiply" is `gfMul` everywhere
(R78), which R87 and R90 say is equal to their exponent form: log entry 9. -/

namespace Sys2Proof.Machine

/-- Every coefficient multiplied by `c`. -/
def polyScale (c : GfValue) (p : List GfValue) : List GfValue := p.map fun x => gfMul x c

/-- `p` added into the front of `r`; what lies behind the end of `p` stays (R90's zero-padding on the right). -/
def polyXorFront : List GfValue → List GfValue → List GfValue
  | [], _ => []
  | r, [] => r
  | x :: r, y :: p => gfAdd x y :: polyXorFront r p

/-- One factor of R87: `x · g(x)` with `α^i · g(x)` added. -/
def genPolyStep (g : List GfValue) (i : Nat) : List GfValue :=
  polyXorFront (g ++ [0]) (0 :: polyScale (alphaPow i) g)

/-- `gen_poly(n)` (R87): the coefficients of `∏_{i<n} (x - α^i)`. -/
def genPoly (n : Nat) : List GfValue := (List.range n).foldl genPolyStep [1]

/-- One iteration of R90: subtract `lead · g` and drop the leading coefficient; a zero lead skips the multiplication. -/
def remStep (g r : List GfValue) : List GfValue :=
  match r with
  | [] => []
  | lead :: rest => if lead = 0 then rest else (polyXorFront (lead :: rest) (polyScale lead g)).tail

/-- `k` iterations of R90. -/
def remLoop (g : List GfValue) : Nat → List GfValue → List GfValue
  | 0, r => r
  | k + 1, r => remLoop g k (remStep g r)

/-- `rs_rem(d, g)` (R90): the remainder of `d(x) · x^n` divided by `g`, where n + 1 is the length of `g`. -/
def rsRem (d g : List GfValue) : List GfValue :=
  remLoop g d.length (d ++ List.replicate (g.length - 1) 0)

/-- The value of the polynomial `c` at `x`, by Horner's rule (R95). -/
def polyEval (c : List GfValue) (x : GfValue) : GfValue :=
  c.foldl (fun acc b => gfAdd (gfMul acc x) b) 0

/-- `syndromes(c, n)` (R95): the values of `c` at α^0 … α^(n-1). -/
def syndromes (c : List GfValue) (n : Nat) : List GfValue :=
  (List.range n).map fun i => polyEval c (alphaPow i)

end Sys2Proof.Machine
end

