-- ==== Sys2Proof/Machine/ReedSolomon.lean ====
section
/-! DEFINITION. The meanings of the RS commands (41_reed_solomon.md). As in Machine/GfArith.lean a meaning is the whole rule, its
operand check first: log entry 6. -/

namespace Sys2Proof.Machine

/-- RS.GEN: GEN[0..n] <- gen_poly(n), GEN_N <- n, GEN_VALID <- 1 (R88). -/
def execRsGen (n : Byte) (s : State) : Host.Outcome State Fault Refusal :=
  .next (perform (rsGenCheck n s) (writeGenerator n (genPoly n.toNat)) s)

/-- RS.DIV: MSG[k..k+GEN_N-1] <- rs_rem(MSG[0..k-1], GEN[0..GEN_N]) (R92). -/
def execRsDiv (k : BitVec 16) (s : State) : Host.Outcome State Fault Refusal :=
  .next (perform (rsDivCheck k s) (writeEc k.toNat (rsRem (msgPrefix s k.toNat) (generator s))) s)

/-- RS.SYN: SYN[0..n-1] <- syndromes(MSG[0..L-1], n) (R96). -/
def execRsSyn (n : Byte) (l : BitVec 16) (s : State) : Host.Outcome State Fault Refusal :=
  .next (perform (rsSynCheck n l s) (writeSyndromes (syndromes (msgPrefix s l.toNat) n.toNat)) s)

end Sys2Proof.Machine
end

