-- ==== Sys2Proof/Machine/Dispatch.lean ====
section
/-! DEFINITION. From a command to its meaning. -/

namespace Sys2Proof.Machine

/-- The meaning of a command. -/
def exec (i : Instr) (s : State) : Host.Outcome State Fault Refusal :=
  match i with
  | .nop => Sys2Proof.Machine.execNop s
  | .gfExp a => Sys2Proof.Machine.execGfExp a s
  | .gfLog a => Sys2Proof.Machine.execGfLog a s
  | .gfMul a b => Sys2Proof.Machine.execGfMul a b s
  | .gfAdd a b => Sys2Proof.Machine.execGfAdd a b s
  | .rsGen n => Sys2Proof.Machine.execRsGen n s
  | .rsDiv k => Sys2Proof.Machine.execRsDiv k s
  | .rsSyn n l => Sys2Proof.Machine.execRsSyn n l s

end Sys2Proof.Machine
end

