-- ==== Sys2Proof/Machine/Lifecycle.lean ====
section
/-! DEFINITION. The two turns a step can be: the engine's completion (70_reset_and_hazards.md R126) and a move of the host. -/

namespace Sys2Proof.Machine

/-- The engine moves: a command is in flight and its latency has passed (R126, R127). -/
def engineTurn (s : State) : Bool := s.busy && s.latLeft == 0

/-- The completion step (R126): decode PENDING, apply the command's effect, BUSY <- 0, in one step. -/
def completion (s : State) : Host.Outcome State Fault Refusal :=
  match decode s.pending with
  | .ok i => exec i { s with busy := false }
  | .error _ => .fault .pendingNotCommand

/-- The host's next move. With none left the cycle passes with no access (log entry 11). -/
def hostTurn (s : State) : Host.Outcome State Fault Refusal :=
  match s.host with
  | [] => .next (tick s)
  | m :: rest => hostMove m { tick s with host := rest }

/-- A state in which the engine's next step is the completion of the command word `w`. -/
def loadPending (w : Word) (s : State) : State := { s with pending := w, busy := true, latLeft := 0 }

end Sys2Proof.Machine
end

