-- ==== Sys2Proof/Machine/Step.lean ====
section
/-! DEFINITION. One step of the unit and its host (00_scope.md R6; 20_memory.md R56, R57). -/

namespace Sys2Proof.Machine

/-- The engine's completion if it is due, else the host's next move. -/
def step (s : State) : Host.Outcome State Fault Refusal :=
  if engineTurn s then completion s else hostTurn s

/-- `s` with the command word `w` where the engine takes its next command from: in PENDING, accepted and due (10_state.md R29; log
entry 5). -/
def State.withFetchWord (s : State) (nbits w : Nat) : State := loadPending (BitVec.ofNat 32 (w % 2 ^ nbits)) s

end Sys2Proof.Machine
end

