-- ==== Sys2Proof/Machine/Asm.lean ====
section
/-! DEFINITION. The assembler: command lines, host statements and pseudo-instructions, and the host moves they stand for
(30_encoding.md R71–R73). -/

namespace Sys2Proof.Machine

/-- One line of a program. Operands are natural numbers, as written. -/
inductive AsmLine where
  /-- An empty line, or one that is only a comment (R72; that an empty line is allowed is DESIGN CHOICE, log entry 15). -/
  | blank
  | nop
  | gfExp (a : Nat)
  | gfLog (a : Nat)
  | gfMul (a b : Nat)
  | gfAdd (a b : Nat)
  | rsGen (n : Nat)
  | rsDiv (k : Nat)
  | rsSyn (n l : Nat)
  | sw (addr v : Nat)
  /-- `HostRead(addr)` (R72). DESIGN CHOICE, log entry 15: R72 says that the program text names what is expected of the value read and
  gives no syntax for it, so the line holds no expectation, and one that a text names can only stand in a comment. -/
  | lw (addr : Nat)
  | wait
  | errclr
  | gfLi (a : Nat)
  | gfSqr (a : Nat)
  | rsChk (k n : Nat)
  | msgLd (i : Nat) (cs : List Nat)
  | msgRd (i m : Nat)
deriving DecidableEq, Repr

/-- `HostWrite(addr, v)` as a host move (R72). -/
def storeWord (addr : Nat) (v : Word) : HostMove := .bridge ⟨addr, 4, some v⟩

/-- `HostRead(addr)` as a host move (R72). -/
def loadWord (addr : Nat) : HostMove := .bridge ⟨addr, 4, none⟩

/-- A command line stands for `HostWrite(0x0000, encoding)` (R71). -/
def commandMove (i : Instr) : HostMove := storeWord 0x0000 (encode i)

/-- A value that fits an 8-bit field; the assembler refuses any other (R71). -/
def byteOperand (v : Nat) : Option Byte := if v ≤ 255 then some (BitVec.ofNat 8 v) else none

/-- A value that fits a 16-bit field (R71). -/
def halfOperand (v : Nat) : Option (BitVec 16) := if v ≤ 65535 then some (BitVec.ofNat 16 v) else none

/-- A value that fits the word of a host write; log entry 15. -/
def wordOperand (v : Nat) : Option Word := if v < 2 ^ 32 then some (BitVec.ofNat 32 v) else none

/-- The writes of `msg.ld i, c0, …` (R73): one a codeword, at rising entries. -/
def msgLoads : Nat → List Nat → Option (List HostMove)
  | _, [] => some []
  | i, c :: cs => do return storeWord (0x4000 + 4 * i) (← wordOperand c) :: (← msgLoads (i + 1) cs)

/-- The host moves of a line (R71, R72, R73); `none` where the assembler refuses it. -/
def assemble : AsmLine → Option (List HostMove)
  | .blank => some []
  | .nop => some [commandMove .nop]
  | .gfExp a => do return [commandMove (.gfExp (← byteOperand a))]
  | .gfLog a => do return [commandMove (.gfLog (← byteOperand a))]
  | .gfMul a b => do return [commandMove (.gfMul (← byteOperand a) (← byteOperand b))]
  | .gfAdd a b => do return [commandMove (.gfAdd (← byteOperand a) (← byteOperand b))]
  | .rsGen n => do return [commandMove (.rsGen (← byteOperand n))]
  | .rsDiv k => do return [commandMove (.rsDiv (← halfOperand k))]
  | .rsSyn n l => do return [commandMove (.rsSyn (← byteOperand n) (← halfOperand l))]
  | .sw addr v => do return [storeWord addr (← wordOperand v)]
  | .lw addr => some [loadWord addr]
  | .wait => some [.wait]
  | .errclr => some [storeWord 0x0004 0x2]
  | .gfLi a => do return [commandMove (.gfAdd (← byteOperand a) 0)]
  | .gfSqr a => do return [commandMove (.gfMul (← byteOperand a) (← byteOperand a))]
  | .rsChk k n => do return [commandMove (.rsDiv (← halfOperand (k + n)))]
  | .msgLd i cs => msgLoads i cs
  | .msgRd i m => some ((List.range m).map fun t => loadWord (0x4000 + 4 * (i + t)))

/-- The host moves of a program, its lines in order. -/
def assembleAll : List AsmLine → Option (List HostMove)
  | [] => some []
  | l :: ls => do return (← assemble l) ++ (← assembleAll ls)

/-! ### The text of a line

Log entry 15 says what R71 leaves open about it. -/

/-- A blank of a line's text. -/
def isBlank (c : Char) : Bool := c == ' ' || c == '\t'

/-- Blanks taken off both ends. -/
def trimBlanks (cs : List Char) : List Char :=
  ((cs.dropWhile isBlank).reverse.dropWhile isBlank).reverse

/-- The value of a hexadecimal digit, either case. -/
def digitValue (c : Char) : Option Nat :=
  if '0'.toNat ≤ c.toNat ∧ c.toNat ≤ '9'.toNat then some (c.toNat - '0'.toNat)
  else if 'a'.toNat ≤ c.toNat ∧ c.toNat ≤ 'f'.toNat then some (c.toNat - 'a'.toNat + 10)
  else if 'A'.toNat ≤ c.toNat ∧ c.toNat ≤ 'F'.toNat then some (c.toNat - 'A'.toNat + 10)
  else none

/-- The digits of a literal in base `base`, read from the left onto `acc`. -/
def digitsValue (base : Nat) : Nat → List Char → Option Nat
  | acc, [] => some acc
  | acc, c :: cs =>
    match digitValue c with
    | some d => if d < base then digitsValue base (acc * base + d) cs else none
    | none => none

/-- A decimal or a hexadecimal literal (R71). -/
def literalValue : List Char → Option Nat
  | [] => none
  | ['0', 'x'] => none
  | '0' :: 'x' :: ds => digitsValue 16 0 ds
  | ds => digitsValue 10 0 ds

/-- The pieces of a text between commas. -/
def splitCommas : List Char → List (List Char)
  | [] => [[]]
  | c :: cs =>
    if c == ',' then [] :: splitCommas cs
    else
      match splitCommas cs with
      | [] => [[c]]
      | p :: ps => (c :: p) :: ps

/-- All the values of a list, or `none` if one is missing. -/
def allSome : List (Option Nat) → Option (List Nat)
  | [] => some []
  | none :: _ => none
  | some v :: vs => (allSome vs).map (v :: ·)

/-- The operands of a line, separated by commas (R71). -/
def parseOperands (cs : List Char) : Option (List Nat) :=
  if (trimBlanks cs).isEmpty then some [] else allSome ((splitCommas cs).map fun p => literalValue (trimBlanks p))

/-- The line of a mnemonic with its operands (R71, R72, R73). -/
def lineOf (mnemonic : List Char) (ops : List Nat) : Option AsmLine :=
  if mnemonic = ['n', 'o', 'p'] then match ops with | [] => some .nop | _ => none
  else if mnemonic = ['g', 'f', '.', 'e', 'x', 'p'] then match ops with | [a] => some (.gfExp a) | _ => none
  else if mnemonic = ['g', 'f', '.', 'l', 'o', 'g'] then match ops with | [a] => some (.gfLog a) | _ => none
  else if mnemonic = ['g', 'f', '.', 'm', 'u', 'l'] then match ops with | [a, b] => some (.gfMul a b) | _ => none
  else if mnemonic = ['g', 'f', '.', 'a', 'd', 'd'] then match ops with | [a, b] => some (.gfAdd a b) | _ => none
  else if mnemonic = ['r', 's', '.', 'g', 'e', 'n'] then match ops with | [n] => some (.rsGen n) | _ => none
  else if mnemonic = ['r', 's', '.', 'd', 'i', 'v'] then match ops with | [k] => some (.rsDiv k) | _ => none
  else if mnemonic = ['r', 's', '.', 's', 'y', 'n'] then match ops with | [n, l] => some (.rsSyn n l) | _ => none
  else if mnemonic = ['s', 'w'] then match ops with | [a, v] => some (.sw a v) | _ => none
  else if mnemonic = ['l', 'w'] then match ops with | [a] => some (.lw a) | _ => none
  else if mnemonic = ['w', 'a', 'i', 't'] then match ops with | [] => some .wait | _ => none
  else if mnemonic = ['e', 'r', 'r', 'c', 'l', 'r'] then match ops with | [] => some .errclr | _ => none
  else if mnemonic = ['g', 'f', '.', 'l', 'i'] then match ops with | [a] => some (.gfLi a) | _ => none
  else if mnemonic = ['g', 'f', '.', 's', 'q', 'r'] then match ops with | [a] => some (.gfSqr a) | _ => none
  else if mnemonic = ['r', 's', '.', 'c', 'h', 'k'] then match ops with | [k, n] => some (.rsChk k n) | _ => none
  else if mnemonic = ['m', 's', 'g', '.', 'l', 'd'] then match ops with | i :: c :: cs => some (.msgLd i (c :: cs)) | _ => none
  else if mnemonic = ['m', 's', 'g', '.', 'r', 'd'] then match ops with | [i, m] => some (.msgRd i m) | _ => none
  else none

/-- The line that a text stands for; `none` where the assembler refuses it. What follows a semicolon is a comment (R72). -/
def parseLine (text : List Char) : Option AsmLine :=
  let body := trimBlanks (text.takeWhile (· != ';'))
  if body.isEmpty then some .blank
  else do lineOf (body.takeWhile fun c => !isBlank c) (← parseOperands (body.dropWhile fun c => !isBlank c))

end Sys2Proof.Machine
end

