-- ==== Sys2Proof/WellFormed.lean ====
section
/-! DEFINITION. Which operand values are legal (30_encoding.md R70), as far as the command and the parameters say. The operands'
widths need no check: `Instr` holds them in their types. What R70 makes depend on the state (GEN_VALID and GEN_N for RS.DIV) is
`operandCheck` of Machine/Operands.lean. -/

namespace Sys2Proof

/-- The command's own operands are among the legal values of R70, whatever the state: some state accepts the command. GEN_N is
at least 1 once a generator is there, so an RS.DIV needs k < MSG_DEPTH. -/
def Instr.wellFormed (p : Params) : Instr → Bool
  | .nop => true
  | .gfExp _ => true
  | .gfLog a => decide (a ≠ 0)
  | .gfMul _ _ => true
  | .gfAdd _ _ => true
  | .rsGen n => decide (n ≠ 0 ∧ n.toNat ≤ p.nMax)
  | .rsDiv k => decide (k.toNat + 1 ≤ p.msgDepth)
  | .rsSyn n l => decide (n ≠ 0 ∧ n.toNat ≤ p.nMax ∧ l.toNat ≤ p.msgDepth)

end Sys2Proof
end

