-- ==== Sys2Proof/Safety.lean ====
section
/-! DEFINITION. What counts as a safe state and a safe run, in the terms the claims use. -/

namespace Sys2Proof.Machine

/-- What holds of the unit at every moment. -/
structure State.Inv (s : State) : Prop where
  /-- N_MAX and MSG_DEPTH are in the ranges of 00_scope.md R7 and R8. -/
  params : s.params.Legal
  /-- The buffers' contents are in canonical form, and no entry lies outside its buffer (10_state.md R30, R31, R32). -/
  genWf : s.gen.Wf
  synWf : s.syn.Wf
  msgWf : s.msg.Wf
  genBelow : s.gen.Below (s.params.nMax + 1)
  synBelow : s.syn.Below s.params.nMax
  msgBelow : s.msg.Below s.params.msgDepth
  /-- Codes 8 to 15 are never held (60_exceptions.md R108). -/
  errcodeAssigned : s.errcode.toNat ≤ 7
  /-- ERRCODE holds a rejection's code exactly while ERR is 1 (10_state.md R21, R24; 60_exceptions.md R100). -/
  errIff : s.err = true ↔ s.errcode ≠ 0
  /-- Before the first RS.GEN GEN_N is 0 and no GEN entry has been written (R23, R26, R30). -/
  noGenerator : s.genValid = false → s.genN = 0 ∧ s.gen = []
  /-- From then on GEN[0..GEN_N] is the generator polynomial of degree GEN_N (R26, R30). -/
  hasGenerator : s.genValid = true →
    1 ≤ s.genN.toNat ∧ s.genN.toNat ≤ s.params.nMax ∧ generator s = genPoly s.genN.toNat
  /-- A command in flight is one that passed its checks (70_reset_and_hazards.md R126). -/
  pendingLegal : s.busy = true → ∃ i, decode s.pending = .ok i ∧ operandCheck i s = none
  /-- With no command in flight no latency is left. -/
  idle : s.busy = false → s.latLeft = 0

/-- The unit alone: the state of 10_state.md R17 (with the reset count, which the free buffer contents depend on), the port's read data
and the model's own fields blanked. Two states with the same unit differ in nothing the spec calls state. -/
def State.unit (s : State) : State := { s with rdata := 0, host := [], plan := [], latLeft := 0, draws := 0 }

/-- This step is a reset edge: the host moves, and its move holds `rst` at 1. -/
def State.stepResets (s : State) : Bool :=
  !engineTurn s &&
    match s.host with
    | .cycle rst _ :: _ => rst
    | _ => false

/-- The move is one the unit carries out: no refused request. -/
def HostMove.carriedOut : HostMove → Bool
  | .cycle _ _ => true
  | .bridge r =>
    match r.access with
    | .ok _ => true
    | .error _ => false
  | .wait => true
  | .outside _ => false

/-- The move is one the unit carries out out of reset. -/
def HostMove.ordinary : HostMove → Bool
  | .cycle rst _ => !rst
  | m => m.carriedOut

/-- The access a host move presents out of reset, if it presents one. -/
def HostMove.access? : HostMove → Option Access
  | .cycle rst x => if rst then none else x
  | .bridge r =>
    match r.access with
    | .ok x => some x
    | .error _ => none
  | .wait => some (.read statusAddr)
  | .outside _ => none

/-- The host's next move is the access `x`, out of reset, and it is the host that moves. -/
abbrev State.Presents (s : State) (x : Access) (rest : List HostMove) : Prop :=
  engineTurn s = false ∧ s.host = .cycle false (some x) :: rest

/-- The state once a host move has been taken from the list, before its effect. -/
def State.afterMove (s : State) (rest : List HostMove) : State := { tick s with host := rest }

/-- A rejection with code `c` (60_exceptions.md R98), the code as a number. -/
def State.rejected (s : State) (c : BitVec 4) : State := { s with err := true, errcode := c }

/-- The product of two polynomials, highest degree first (00_scope.md R13); `g` is not empty. -/
def polyMul : List GfValue → List GfValue → List GfValue
  | [], g => List.replicate (g.length - 1) 0
  | c :: q, g => polyXorFront (polyScale c g ++ List.replicate q.length 0) (0 :: polyMul q g)

/-- A safe run: `k` steps from `s` end in no fault and no refusal. -/
def SafeRun (k : Nat) (s : State) : Prop := ∃ t : State, Host.Core.run core k s = .next t

end Sys2Proof.Machine
end

