-- ==== Sys2Proof/Certificates/Slice0/Obligations.lean ====
section
/-! DEFINITION. The statements about the model. Each docstring names the rule of spec/ the statement formalises. -/

open Sys2Proof Sys2Proof.Machine

/-! ### Command words -/

/-- Words written out from the field tables of 30_encoding.md R63, R64 and R66, one a command and some that are none. -/
def Obligations.SampleWordsDecode : Prop :=
  decode 0x00000000 = .ok .nop ∧ decode 0x01FF0000 = .ok (.gfExp 255) ∧ decode 0x021D0000 = .ok (.gfLog 29) ∧
  decode 0x0353CA00 = .ok (.gfMul 0x53 0xCA) ∧ decode 0x0453CA00 = .ok (.gfAdd 0x53 0xCA) ∧
  decode 0x100A0000 = .ok (.rsGen 10) ∧ decode 0x1100FFFF = .ok (.rsDiv 65535) ∧
  decode 0x120A001A = .ok (.rsSyn 10 26) ∧
  decode 0x00000001 = .error .reservedField ∧ decode 0x11010003 = .error .reservedField ∧
  decode 0x0F000000 = .error .illegalOpcode ∧ decode 0x13000000 = .error .illegalOpcode

/-- No bit of a command is lost in its encoding (R63–R67): every command, with every operand value, comes back. -/
def Obligations.DecodeOfEncodeIsTheCommand : Prop := ∀ i : Instr, decode (encode i) = .ok i

/-- No two words mean the same command (R67): a word that decodes is the encoding of what it decodes to. -/
def Obligations.EncodeOfDecodeIsTheWord : Prop := ∀ (w : Word) (i : Instr), decode w = .ok i → encode i = w

/-- R66: `w AND mask == match` selects the command. -/
def Obligations.MatchAndMaskSelectTheCommand : Prop :=
  ∀ w : Word,
    ((∃ i, decode w = .ok i ∧ i.opcode = .nop) ↔ w &&& 0xFFFFFFFF = 0x00000000) ∧
    ((∃ i, decode w = .ok i ∧ i.opcode = .gfExp) ↔ w &&& 0xFF00FFFF = 0x01000000) ∧
    ((∃ i, decode w = .ok i ∧ i.opcode = .gfLog) ↔ w &&& 0xFF00FFFF = 0x02000000) ∧
    ((∃ i, decode w = .ok i ∧ i.opcode = .gfMul) ↔ w &&& 0xFF0000FF = 0x03000000) ∧
    ((∃ i, decode w = .ok i ∧ i.opcode = .gfAdd) ↔ w &&& 0xFF0000FF = 0x04000000) ∧
    ((∃ i, decode w = .ok i ∧ i.opcode = .rsGen) ↔ w &&& 0xFF00FFFF = 0x10000000) ∧
    ((∃ i, decode w = .ok i ∧ i.opcode = .rsDiv) ↔ w &&& 0xFFFF0000 = 0x11000000) ∧
    ((∃ i, decode w = .ok i ∧ i.opcode = .rsSyn) ↔ w &&& 0xFF000000 = 0x12000000)

/-! ### The field -/

/-- EXP_ROM holds gf_pow, is a bijection onto the non-zero elements, and has the boundary values named in R37. The spec marks the
bijection as its own inference: "[derived: from rule R35 by evaluating it for every e; the 255 values were checked pairwise distinct]". -/
def Obligations.ExpRomIsGfPowBijection : Prop :=
  (∀ e : GfExponent, expRom e = gfPow e.val) ∧ (∀ e f : GfExponent, expRom e = expRom f → e = f) ∧
  (∀ v : GfValue, v ≠ 0 ↔ ∃ e, expRom e = v) ∧
  expRom 0 = 1 ∧ expRom 7 = 128 ∧ expRom 8 = 29 ∧ expRom 254 = 142

/-- LOG_ROM is the inverse of EXP_ROM, and has no entry for 0 (R38, R39). The spec marks this as its own inference: "[derived: from rules
R37 and R38]". -/
def Obligations.LogRomInvertsExpRom : Prop :=
  (∀ e : GfExponent, logRom (expRom e) = some e) ∧
  (∀ v : GfValue, v ≠ 0 → ∃ e, logRom v = some e ∧ expRom e = v ∧ ∀ f, expRom f = v → f = e) ∧ logRom 0 = none

/-- gf_pow has period 255 on all natural numbers (R36). The spec marks this as its own inference: "[derived: from rule R35 and the table of
95_test_vectors.md §2 …]". -/
def Obligations.GfPowHasPeriod255 : Prop := gfPow 255 = 1 ∧ ∀ e : Nat, gfPow e = gfPow (e % 255)

/-- The laws of the field (R82). The spec marks them as its own inference: "These laws are derived: the 255 powers of α are distinct …". -/
def Obligations.GfArithmeticIsAField : Prop :=
  ∀ a b c : GfValue,
    gfAdd a b = gfAdd b a ∧ gfAdd (gfAdd a b) c = gfAdd a (gfAdd b c) ∧
    gfMul a b = gfMul b a ∧ gfMul (gfMul a b) c = gfMul a (gfMul b c) ∧
    gfMul a (gfAdd b c) = gfAdd (gfMul a b) (gfMul a c) ∧
    gfAdd a 0 = a ∧ gfMul a 1 = a ∧ gfAdd a a = 0 ∧
    (∀ e, logRom a = some e → gfMul a (expRom (Fin.ofNat 255 ((255 - e.val) % 255))) = 1) ∧
    (a ≠ 0 → ∃ e, logRom a = some e)

/-! ### The commands of 40_gf_arith.md -/

/-- R75: the word 0 alone is NOP, it has no check, and it writes no state. -/
def Obligations.NopWritesNothing : Prop :=
  (∀ w : Word, decode w = .ok .nop ↔ w = 0) ∧
  (∀ w : Word, w ≠ 0 → w >>> 24 = 0 → decode w = .error .reservedField) ∧
  ∀ s : State, operandCheck .nop s = none ∧ exec .nop s = .next s

/-- R76: RESULT <- gf_pow(a) for every exponent field, ZERO <- 0, and nothing else changes. -/
def Obligations.GfExpGivesPowerOfAlpha : Prop :=
  ∀ (a : Byte) (s : State),
    decode (BitVec.ofNat 32 (0x01000000 + a.toNat * 2 ^ 16)) = .ok (.gfExp a) ∧ operandCheck (.gfExp a) s = none ∧
    exec (.gfExp a) s = .next { s with result := gfPow a.toNat, zero := false }

/-- R77: RESULT <- the exponent of a, ZERO exactly for a = 1, nothing else; a = 0 is rejected with code 3. -/
def Obligations.GfLogGivesExponentOrRejectsZero : Prop :=
  ∀ (a : GfValue) (s : State),
    decode (BitVec.ofNat 32 (0x02000000 + a.toNat * 2 ^ 16)) = .ok (.gfLog a) ∧
    (a ≠ 0 → operandCheck (.gfLog a) s = none ∧ ∃ e : Nat, e < 255 ∧ gfPow e = a ∧
      exec (.gfLog a) s = .next { s with result := BitVec.ofNat 8 e, zero := decide (a = 1) }) ∧
    (a = 0 → operandCheck (.gfLog a) s = some .logZero ∧
      exec (.gfLog a) s = .next { s with err := true, errcode := 3 })

/-- R78, R79: RESULT <- the value whose exponent is the sum modulo 255 of the operands' exponents, and 0 for a zero operand; ZERO exactly
for a zero operand; nothing else. -/
def Obligations.GfMulAddsExponents : Prop :=
  ∀ (a b : GfValue) (s : State),
    decode (BitVec.ofNat 32 (0x03000000 + a.toNat * 2 ^ 16 + b.toNat * 2 ^ 8)) = .ok (.gfMul a b) ∧
    operandCheck (.gfMul a b) s = none ∧
    (a = 0 ∨ b = 0 → exec (.gfMul a b) s = .next { s with result := 0, zero := true }) ∧
    (a ≠ 0 → b ≠ 0 → ∃ i j : Nat, i < 255 ∧ j < 255 ∧ gfPow i = a ∧ gfPow j = b ∧
      exec (.gfMul a b) s = .next { s with result := gfPow ((i + j) % 255), zero := false })

/-- The multiplier is the carry-less product reduced modulo 0x11D. The spec marks this as its own inference: "This equivalence is
derived, not stated by the source" (R80). -/
def Obligations.GfMulIsCarrylessProduct : Prop := ∀ a b : GfValue, gfMul a b = clmulMod a b

/-- R81: RESULT <- a XOR b, ZERO exactly for a = b, nothing else. -/
def Obligations.GfAddIsExclusiveOr : Prop :=
  ∀ (a b : GfValue) (s : State),
    decode (BitVec.ofNat 32 (0x04000000 + a.toNat * 2 ^ 16 + b.toNat * 2 ^ 8)) = .ok (.gfAdd a b) ∧
    operandCheck (.gfAdd a b) s = none ∧
    exec (.gfAdd a b) s = .next { s with result := a ^^^ b, zero := decide (a = b) }

/-- R74: an accepted GF command writes RESULT and ZERO alone, NOP writes nothing, and what is written depends on the operand fields
alone. -/
def Obligations.GfResultsDependOnOperandsAlone : Prop :=
  (∀ s : State, exec .nop s = .next s) ∧
  ∀ (i : Instr) (s₀ : State),
    (i.opcode = .gfExp ∨ i.opcode = .gfLog ∨ i.opcode = .gfMul ∨ i.opcode = .gfAdd) → operandCheck i s₀ = none →
    ∃ (v : Byte) (z : Bool), ∀ s : State, exec i s = .next { s with result := v, zero := z }

/-- a ⊘ b by GF.LOG, GF.EXP and GF.MUL, the host subtracting the exponent from 255 (R84). The spec marks this as its own inference:
"[derived: from rules R76, R77, R79 and R82]". -/
def Obligations.HostDividesByLogExpMul : Prop :=
  ∀ (a b : GfValue) (s : State), b ≠ 0 →
    ∃ s₁ s₂ s₃ : State, exec (.gfLog b) s = .next s₁ ∧
      exec (.gfExp (BitVec.ofNat 8 ((255 - s₁.result.toNat) % 255))) s₁ = .next s₂ ∧
      exec (.gfMul a s₂.result) s₂ = .next s₃ ∧ gfMul s₃.result b = a

/-! ### The commands of 41_reed_solomon.md -/

/-- R88: GEN[0..n] <- gen_poly(n), GEN_N <- n, GEN_VALID <- 1, the rest of GEN and of the state as before; BAD_LENGTH otherwise. -/
def Obligations.RsGenLoadsGenerator : Prop :=
  ∀ (n : Byte) (s : State),
    decode (BitVec.ofNat 32 (0x10000000 + n.toNat * 2 ^ 16)) = .ok (.rsGen n) ∧
    (n ≠ 0 → n.toNat ≤ s.params.nMax → operandCheck (.rsGen n) s = none ∧ ∃ t : State, exec (.rsGen n) s = .next t ∧
      t = { s with gen := t.gen, genN := n, genValid := true } ∧
      (∀ j, j ≤ n.toNat → (genPoly n.toNat)[j]? = some (t.genEntry j)) ∧
      (∀ j, n.toNat < j → t.genEntry j = s.genEntry j)) ∧
    (n = 0 ∨ n.toNat > s.params.nMax → operandCheck (.rsGen n) s = some .badLength ∧
      exec (.rsGen n) s = .next { s with err := true, errcode := 4 })

/-- gen_poly(n) takes at every x the value of the product of the factors x − α^i, i < n: the sense of R87's "coefficient sequence … of the
monic polynomial", read by the model through values. -/
def Obligations.GenPolyIsProductOfFactors : Prop :=
  ∀ (n : Nat) (x : GfValue), polyEval (genPoly n) x =
    (List.range n).foldl (fun acc i => gfMul acc (gfAdd x (alphaPow i))) 1

/-- R89 (a), (b), (c), (e): degree n, monic, its constant term, its roots. The spec marks (c) and (e) as its own inference: "(c) and (e) are
derived from the product form". -/
def Obligations.GenPolyDegreeMonicConstantRoots : Prop :=
  ∀ n : Nat, 1 ≤ n → n ≤ 254 →
    (genPoly n).length = n + 1 ∧ (genPoly n)[0]? = some 1 ∧ (genPoly n)[n]? = some (alphaPow (n * (n - 1) / 2)) ∧
    ∀ i, i < n → polyEval (genPoly n) (alphaPow i) = 0

/-- R89 (d): no coefficient of gen_poly(n) is 0; the intermediate polynomials are gen_poly(m) for m ≤ n. The spec marks this as its own
inference: "(d) was checked by evaluating rule R87 for every `n` in 1..254". -/
def Obligations.GenPolyHasNoZeroCoefficient : Prop := ∀ n : Nat, n ≤ 254 → ∀ c ∈ genPoly n, c ≠ 0

/-- R92: MSG[k..k+n-1] <- the EC codewords of MSG[0..k-1], ZERO exactly when all are 0, nothing else; NO_GENERATOR before BAD_LENGTH. -/
def Obligations.RsDivWritesEcCodewords : Prop :=
  ∀ (k : BitVec 16) (s : State),
    decode (BitVec.ofNat 32 (0x11000000 + k.toNat)) = .ok (.rsDiv k) ∧
    (s.genValid = true → k.toNat + s.genN.toNat ≤ s.params.msgDepth →
      operandCheck (.rsDiv k) s = none ∧ ∃ (t : State) (ec : List Byte), exec (.rsDiv k) s = .next t ∧
      ec = rsRem ((List.range k.toNat).map s.msgEntry) ((List.range (s.genN.toNat + 1)).map s.genEntry) ∧
      t = { s with msg := t.msg, zero := t.zero } ∧ ec.length = s.genN.toNat ∧
      (∀ i, i < s.genN.toNat → ec[i]? = some (t.msgEntry (k.toNat + i))) ∧
      (∀ i, i < k.toNat ∨ k.toNat + s.genN.toNat ≤ i → t.msgEntry i = s.msgEntry i) ∧
      (t.zero = true ↔ ∀ i, i < s.genN.toNat → t.msgEntry (k.toNat + i) = 0)) ∧
    (s.genValid = false → operandCheck (.rsDiv k) s = some .noGenerator ∧
      exec (.rsDiv k) s = .next { s with err := true, errcode := 5 }) ∧
    (s.genValid = true → k.toNat + s.genN.toNat > s.params.msgDepth → operandCheck (.rsDiv k) s = some .badLength ∧
      exec (.rsDiv k) s = .next { s with err := true, errcode := 4 })

/-- rs_rem(d, g), for a monic g of degree n, is the unique list of n coefficients ρ with d(x) · x^n = q(x) · g(x) + ρ(x) for some q(x) (R91).
The spec marks this as its own inference: "[derived: from rule R90; each iteration subtracts …]". -/
def Obligations.RsRemIsTheUniqueRemainder : Prop :=
  ∀ (d lower : List GfValue),
    (∃ q : List GfValue, q.length = d.length ∧
      polyXorFront (polyMul q (1 :: lower)) (List.replicate d.length 0 ++ rsRem d (1 :: lower)) =
        d ++ List.replicate lower.length 0) ∧
    (rsRem d (1 :: lower)).length = lower.length ∧
    ∀ q ρ : List GfValue, q.length = d.length → ρ.length = lower.length →
      polyXorFront (polyMul q (1 :: lower)) (List.replicate d.length 0 ++ ρ) = d ++ List.replicate lower.length 0 →
      ρ = rsRem d (1 :: lower)

/-- Dividing the data together with their EC codewords gives n zero codewords and ZERO = 1 (R94). The spec marks this as its own inference:
"[derived: from this rule and rule R91, since c(x)·x^n is a multiple of g_n(x) too]". -/
def Obligations.CodewordDividesWithoutRemainder : Prop :=
  ∀ (k k' : BitVec 16) (s : State), s.Inv → s.genValid = true → k'.toNat = k.toNat + s.genN.toNat →
    k.toNat + 2 * s.genN.toNat ≤ s.params.msgDepth →
    ∃ t u : State, exec (.rsDiv k) s = .next t ∧ exec (.rsDiv k') t = .next u ∧ u.zero = true ∧
      ∀ i, i < s.genN.toNat → u.msgEntry (k.toNat + s.genN.toNat + i) = 0

/-- R96: SYN[0..n-1] <- the syndromes of MSG[0..L-1], ZERO exactly when all are 0, nothing else; BAD_LENGTH otherwise. -/
def Obligations.RsSynWritesSyndromes : Prop :=
  ∀ (n : Byte) (l : BitVec 16) (s : State),
    decode (BitVec.ofNat 32 (0x12000000 + n.toNat * 2 ^ 16 + l.toNat)) = .ok (.rsSyn n l) ∧
    (n ≠ 0 → n.toNat ≤ s.params.nMax → l.toNat ≤ s.params.msgDepth →
      operandCheck (.rsSyn n l) s = none ∧ ∃ t : State, exec (.rsSyn n l) s = .next t ∧
      t = { s with syn := t.syn, zero := t.zero } ∧
      (∀ i, i < n.toNat → (syndromes ((List.range l.toNat).map s.msgEntry) n.toNat)[i]? = some (t.synEntry i)) ∧
      (∀ i, n.toNat ≤ i → t.synEntry i = s.synEntry i) ∧
      (t.zero = true ↔ ∀ i, i < n.toNat → t.synEntry i = 0)) ∧
    (n = 0 ∨ n.toNat > s.params.nMax ∨ l.toNat > s.params.msgDepth →
      operandCheck (.rsSyn n l) s = some .badLength ∧
      exec (.rsSyn n l) s = .next { s with err := true, errcode := 4 })

/-- The i-th syndrome is the sum of c[t] · (α^i)^(L-1-t) (R95). The spec marks the definition: "Defining the syndromes as the values at those
points is the general-knowledge part". -/
def Obligations.SyndromeIsTheSumOfPowers : Prop :=
  ∀ (c : List GfValue) (n i : Nat), i < n → n ≤ 254 → (syndromes c n)[i]? =
    some ((List.range c.length).foldl
      (fun acc t => gfAdd acc (gfMul (c.getD t 0) (alphaPow (i * (c.length - 1 - t))))) 0)

/-- All n syndromes of c are 0 exactly when c(x) is a multiple of g_n(x) (R97). Leading zeros do not change a polynomial. The spec marks this
"[from general knowledge, not in source]". -/
def Obligations.SyndromesVanishExactlyOnMultiples : Prop :=
  ∀ (c : List GfValue) (n : Nat), n ≤ 254 →
    ((∀ x ∈ syndromes c n, x = 0) ↔
      ∃ (m : Nat) (q : List GfValue), polyMul q (genPoly n) = List.replicate m 0 ++ c)

/-- The consequence R97 draws: RS.SYN with n = GEN_N sets ZERO exactly when RS.DIV over the same codewords sets it, neither being rejected.
The spec marks this "[from general knowledge, not in source]". -/
def Obligations.SyndromeTestAgreesWithDivision : Prop :=
  ∀ (l : BitVec 16) (s : State), s.Inv → s.genValid = true → l.toNat + s.genN.toNat ≤ s.params.msgDepth →
    operandCheck (.rsSyn s.genN l) s = none ∧ operandCheck (.rsDiv l) s = none ∧
    ∃ t u : State, exec (.rsSyn s.genN l) s = .next t ∧ exec (.rsDiv l) s = .next u ∧ t.zero = u.zero

/-! ### Issue and rejection -/

/-- R68: a reserved opcode is rejected with code 1, with no other effect. -/
def Obligations.ReservedOpcodeIsRejected : Prop :=
  ∀ (s : State) (w : Word) (rest : List HostMove), s.Presents (.write 0 w) rest → s.busy = false →
    (5 ≤ (w >>> 24).toNat ∧ (w >>> 24).toNat ≤ 15) ∨ 19 ≤ (w >>> 24).toNat →
    step s = .next ((s.afterMove rest).rejected 1)

/-- R69: an assigned opcode with a non-zero bit in a reserved field is rejected with code 2, with no other effect. -/
def Obligations.ReservedFieldIsRejected : Prop :=
  ∀ (s : State) (w : Word) (rest : List HostMove), s.Presents (.write 0 w) rest → s.busy = false →
    (w >>> 24 = 0x00 ∧ w &&& 0x00FFFFFF ≠ 0) ∨ (w >>> 24 = 0x01 ∧ w &&& 0x0000FFFF ≠ 0) ∨
      (w >>> 24 = 0x02 ∧ w &&& 0x0000FFFF ≠ 0) ∨ (w >>> 24 = 0x03 ∧ w &&& 0x000000FF ≠ 0) ∨
      (w >>> 24 = 0x04 ∧ w &&& 0x000000FF ≠ 0) ∨ (w >>> 24 = 0x10 ∧ w &&& 0x0000FFFF ≠ 0) ∨
      (w >>> 24 = 0x11 ∧ w &&& 0x00FF0000 ≠ 0) →
    step s = .next ((s.afterMove rest).rejected 2)

/-- R106, R109, R124, R125: a word written to CMD is rejected with code 6 while BUSY = 1, undecoded; else it is decoded and checked in the
order R124 gives, and is rejected with the first code that applies or accepted: PENDING <- w, BUSY <- 1, nothing else of the unit. (An
acceptance gives the model's own fields the command's latency: log entry 4.) -/
def Obligations.CommandIsCheckedThenAccepted : Prop :=
  ∀ (s : State) (w : Word) (rest : List HostMove), s.Presents (.write 0 w) rest →
    let u := s.afterMove rest
    let accepted := ∃ (lat draws : Nat) (plan : List Nat), step s = .next
      { u with pending := w, busy := true, latLeft := lat, draws := draws, plan := plan }
    (s.busy = true → step s = .next (u.rejected 6)) ∧
    (s.busy = false →
      match decode w with
      | .error .illegalOpcode => step s = .next (u.rejected 1)
      | .error .reservedField => step s = .next (u.rejected 2)
      | .ok (.gfLog a) => if a = 0 then step s = .next (u.rejected 3) else accepted
      | .ok (.rsGen n) => if n = 0 ∨ n.toNat > s.params.nMax then step s = .next (u.rejected 4) else accepted
      | .ok (.rsDiv k) =>
        if s.genValid = false then step s = .next (u.rejected 5)
        else if k.toNat + s.genN.toNat > s.params.msgDepth then step s = .next (u.rejected 4)
        else accepted
      | .ok (.rsSyn n l) =>
        if n = 0 ∨ n.toNat > s.params.nMax ∨ l.toNat > s.params.msgDepth then step s = .next (u.rejected 4) else accepted
      | .ok .nop | .ok (.gfExp _) | .ok (.gfMul _ _) | .ok (.gfAdd _ _) => accepted)

/-- R107, R129: a write to an MSG entry while BUSY = 1 is rejected with code 7, and the entry is unchanged. -/
def Obligations.BusyMsgWriteIsRejected : Prop :=
  ∀ (s : State) (a : BitVec 13) (v : Word) (rest : List HostMove), s.Presents (.write a v) rest → s.busy = true →
    s.params.Legal → 0x4000 ≤ 4 * a.toNat → 4 * a.toNat < 0x4000 + 4 * s.params.msgDepth →
    step s = .next ((s.afterMove rest).rejected 7)

/-- R70: the operands of an accepted command are among the legal values, and every legal value is accepted in some state. -/
def Obligations.AcceptedOperandsAreTheLegalOnes : Prop :=
  (∀ (i : Instr) (s : State), s.Inv → operandCheck i s = none → i.wellFormed s.params = true) ∧
  ∀ (i : Instr) (p : Params), p.Legal → i.wellFormed p = true →
    ∃ s : State, s.Inv ∧ s.params = p ∧ operandCheck i s = none

/-! ### Completion -/

/-- When the engine moves and PENDING decodes to a command, the step is that command's meaning with BUSY cleared (R126). That the meaning
repeats the operand check, and that the latency is a count, are the model's choices: log entries 4 and 6. -/
def Obligations.StepRunsThePendingCommand : Prop :=
  ∀ (s : State) (i : Instr), s.busy = true → s.latLeft = 0 → decode s.pending = .ok i →
    step s = exec i { s with busy := false }

/-- R110, R126: a command in flight cannot fail. Its completion finds a command, passes every check again, leaves ERR and ERRCODE alone,
and clears BUSY. -/
def Obligations.CompletionNeverRejects : Prop :=
  ∀ s : State, s.Inv → s.busy = true → s.latLeft = 0 →
    ∃ (i : Instr) (t : State), decode s.pending = .ok i ∧ operandCheck i { s with busy := false } = none ∧
      step s = .next t ∧ t.busy = false ∧ t.err = s.err ∧ t.errcode = s.errcode

/-- R57, R129, R131: while a command is in flight and has not completed, no host move but a reset changes anything of the unit except ERR
and ERRCODE. -/
def Obligations.HostCannotTouchEngineInputs : Prop :=
  ∀ s t : State, s.busy = true → 0 < s.latLeft → s.stepResets = false → step s = .next t →
    t.unit = { s.unit with err := t.err, errcode := t.errcode }

/-- An accepted command completes (R9, R127), exactly when its latency has passed, whatever the host does meanwhile short of a reset or a
refused request; and its effect is that of its meaning on the unit as it was, ERR and ERRCODE apart (R57). Counting the latency in host
moves is the model's choice: log entry 4. -/
def Obligations.AcceptedCommandCompletes : Prop :=
  ∀ s : State, s.Inv → s.busy = true → (∀ m ∈ s.host, m.ordinary = true) →
    ∃ (i : Instr) (u t : State), decode s.pending = .ok i ∧ Host.Core.run core s.latLeft s = .next u ∧
      u.unit = { s.unit with err := u.err, errcode := u.errcode } ∧
      exec i { u with busy := false } = .next t ∧ Host.Core.run core (s.latLeft + 1) s = .next t ∧ t.busy = false

/-- `wait` ends (R73), and what it leaves does not depend on the latency: the command's effect, then a STATUS read with BUSY = 0. Counting the
latency in host moves is the model's choice: log entry 4. -/
def Obligations.WaitEndsWithTheCommandsEffect : Prop :=
  ∀ (s : State) (rest : List HostMove), s.Inv → s.busy = true → s.host = .wait :: rest →
    ∃ (i : Instr) (t : State), decode s.pending = .ok i ∧ exec i { s with busy := false, latLeft := 0 } = .next t ∧
      Host.Core.run core (s.latLeft + 2) s = .next { t with host := rest, rdata := statusWord t }

/-! ### The port -/

/-- R44: what a read of STATUS returns, busy or not, and what a write of STATUS does, busy or not. -/
def Obligations.StatusReadAndAcknowledge : Prop :=
  ∀ (s : State) (rest : List HostMove),
    (s.Presents (.read 1) rest → ∃ w : Word, step s = .next { s.afterMove rest with rdata := w } ∧
      w.getLsbD 0 = s.busy ∧ w.getLsbD 1 = s.err ∧ w.getLsbD 2 = s.zero ∧ w.getLsbD 3 = s.genValid ∧
      w.extractLsb' 4 4 = 0 ∧ w.extractLsb' 8 4 = s.errcode ∧ w.extractLsb' 12 20 = 0) ∧
    ∀ v : Word, s.Presents (.write 1 v) rest →
      (v.getLsbD 1 = true → step s = .next { s.afterMove rest with err := false, errcode := 0 }) ∧
      (v.getLsbD 1 = false → step s = .next (s.afterMove rest))

/-- R27, R50: what a read of CONFIG returns, busy or not; a write of it is ignored, and no step changes it. -/
def Obligations.ConfigReportsTheParameters : Prop :=
  (∀ s t : State, step s = .next t → t.params = s.params) ∧
  ∀ (s : State) (rest : List HostMove), s.params.Legal →
    (s.Presents (.read 4) rest → ∃ w : Word, step s = .next { s.afterMove rest with rdata := w } ∧
      (w.extractLsb' 0 8).toNat = s.params.nMax ∧ w.extractLsb' 8 8 = 0 ∧
      (w.extractLsb' 16 13).toNat = s.params.msgDepth ∧ w.extractLsb' 29 3 = 0) ∧
    ∀ v : Word, s.Presents (.write 4 v) rest → step s = .next (s.afterMove rest)

/-- R45, R46: reads of RESULT and GEN_N while BUSY = 0; writes of them are ignored at any time. -/
def Obligations.ResultAndGenNAreReadOnly : Prop :=
  ∀ (s : State) (rest : List HostMove),
    (s.busy = false → s.Presents (.read 2) rest →
      step s = .next { s.afterMove rest with rdata := s.result.setWidth 32 }) ∧
    (s.busy = false → s.Presents (.read 3) rest →
      step s = .next { s.afterMove rest with rdata := s.genN.setWidth 32 }) ∧
    ∀ v : Word, s.Presents (.write 2 v) rest ∨ s.Presents (.write 3 v) rest → step s = .next (s.afterMove rest)

/-- R47, R48: reads of GEN[j] and SYN[i] while BUSY = 0; writes of them are ignored at any time. -/
def Obligations.GenAndSynAreReadOnly : Prop :=
  ∀ (s : State) (a : BitVec 13) (rest : List HostMove) (j : Nat), s.params.Legal →
    (j ≤ s.params.nMax → 4 * a.toNat = 0x0400 + 4 * j →
      (s.busy = false → s.Presents (.read a) rest →
        step s = .next { s.afterMove rest with rdata := (s.genEntry j).setWidth 32 }) ∧
      ∀ v : Word, s.Presents (.write a v) rest → step s = .next (s.afterMove rest)) ∧
    (j < s.params.nMax → 4 * a.toNat = 0x0800 + 4 * j →
      (s.busy = false → s.Presents (.read a) rest →
        step s = .next { s.afterMove rest with rdata := (s.synEntry j).setWidth 32 }) ∧
      ∀ v : Word, s.Presents (.write a v) rest → step s = .next (s.afterMove rest))

/-- R49: MSG[i] <- v[7:0], every other entry and the rest of the state as before; a read returns the entry. -/
def Obligations.MsgEntryIsWrittenAndRead : Prop :=
  ∀ (s : State) (a : BitVec 13) (rest : List HostMove) (i : Nat), s.params.Legal → s.busy = false →
    i < s.params.msgDepth → 4 * a.toNat = 0x4000 + 4 * i →
    (s.Presents (.read a) rest → step s = .next { s.afterMove rest with rdata := (s.msgEntry i).setWidth 32 }) ∧
    ∀ v : Word, s.Presents (.write a v) rest →
      ∃ t : State, step s = .next t ∧ t = { s.afterMove rest with msg := t.msg } ∧ t.msgEntry i = v.setWidth 8 ∧
        ∀ j, j ≠ i → t.msgEntry j = s.msgEntry j

/-- R51: no address aliases another, and an address that names nothing reads 0, ignores writes and sets no ERR, busy or not. -/
def Obligations.AddressesDoNotAlias : Prop :=
  ∀ p : Params, p.Legal →
    (∀ a b : BitVec 13, Target.ofAddr p a = Target.ofAddr p b → Target.ofAddr p a ≠ .reserved → a = b) ∧
    ∀ (s : State) (a : BitVec 13) (rest : List HostMove), s.params = p →
      (0x0014 ≤ 4 * a.toNat ∧ 4 * a.toNat ≤ 0x03FC) ∨
        (0x0400 + 4 * p.nMax < 4 * a.toNat ∧ 4 * a.toNat ≤ 0x07FC) ∨
        (0x0800 + 4 * p.nMax ≤ 4 * a.toNat ∧ 4 * a.toNat ≤ 0x3FFC) ∨ 0x4000 + 4 * p.msgDepth ≤ 4 * a.toNat →
      (s.Presents (.read a) rest → step s = .next { s.afterMove rest with rdata := 0 }) ∧
      ∀ v : Word, s.Presents (.write a v) rest → step s = .next (s.afterMove rest)

/-- R28, R54: a read at any address, busy or not, changes nothing of the unit; CMD reads 0. -/
def Obligations.ReadsHaveNoSideEffect : Prop :=
  ∀ (s : State) (a : BitVec 13) (rest : List HostMove), s.Presents (.read a) rest →
    ∃ t : State, step s = .next t ∧ t.unit = s.unit ∧ t.host = rest ∧ (a = 0 → t.rdata = 0)

/-- While BUSY = 1 a read of RESULT, GEN_N, GEN, SYN or MSG returns a value drawn afresh, and changes nothing of the unit (R130). The form
of the draw is the model's choice (log entry 3, DESIGN CHOICE): the value is the opaque `Config.busyRead`, of which nothing is known, of
the model's own count `draws`, and the count moves on. -/
def Obligations.BusyReadDrawsAFreshValue : Prop :=
  ∀ (s : State) (a : BitVec 13) (rest : List HostMove), s.Presents (.read a) rest → s.busy = true → s.params.Legal →
    (a = 2 ∨ a = 3 ∨ (0x0400 ≤ 4 * a.toNat ∧ 4 * a.toNat ≤ 0x0400 + 4 * s.params.nMax) ∨
      (0x0800 ≤ 4 * a.toNat ∧ 4 * a.toNat < 0x0800 + 4 * s.params.nMax) ∨
      (0x4000 ≤ 4 * a.toNat ∧ 4 * a.toNat < 0x4000 + 4 * s.params.msgDepth)) →
    step s = .next { s.afterMove rest with rdata := Config.busyRead s.draws, draws := s.draws + 1 }

/-- A whole aligned word at a bridge is the port access at a quarter of the byte address (R42); what the port cannot express is refused by
name (R53), and so is a request for what is outside the unit (R5). The model's choices (log entry 8, DESIGN CHOICE): the names of the
refusals, `subWordAccess` being the one for every width but four bytes; the order width, alignment, range in which a request is checked;
and that an address above 0x7FFC is refused. -/
def Obligations.BridgePassesWholeAlignedWords : Prop :=
  (∀ (s : State) (r : OutsideRequest) (rest : List HostMove), engineTurn s = false → s.host = .outside r :: rest →
    step s = .refused (.outsideUnit r)) ∧
  ∀ (s : State) (r : BridgeRequest) (rest : List HostMove), engineTurn s = false → s.host = .bridge r :: rest →
    (r.bytes = 4 → r.addr % 4 = 0 → r.addr ≤ 0x7FFC → ∃ x : Access,
      (match r.data with
        | none => x = .read (BitVec.ofNat 13 (r.addr / 4))
        | some v => x = .write (BitVec.ofNat 13 (r.addr / 4)) v) ∧
      step s = step { s with host := .cycle false (some x) :: rest }) ∧
    (r.bytes ≠ 4 → step s = .refused .subWordAccess) ∧
    (r.bytes = 4 → r.addr % 4 ≠ 0 → step s = .refused .misalignedAccess) ∧
    (r.bytes = 4 → r.addr % 4 = 0 → 0x7FFC < r.addr → step s = .refused .addressOutsidePort)

/-! ### Reset -/

/-- A reset edge sets what R117 lists, abandons a command in flight (R118) and leaves CONFIG alone; an access presented with it has no other
effect than that a read returns 0 (R119); and every entry of GEN, SYN and MSG is left at an unspecified value (R33). The form of that value
is the model's choice (log entry 2, DESIGN CHOICE): the opaque `Config.ramInit`, of which nothing is known, of the model's own count of
reset edges, the buffer and the index. That a read of CONFIG in reset returns 0 as well, where R27 says otherwise, is the model's choice
too (log entry 17, DESIGN CHOICE). -/
def Obligations.ResetEdgeSetsTheListedValues : Prop :=
  ∀ (s : State) (x : Option Access) (rest : List HostMove), engineTurn s = false → s.host = .cycle true x :: rest →
    ∃ t : State, step s = .next t ∧ t.result = 0 ∧ t.busy = false ∧ t.err = false ∧ t.zero = false ∧
      t.genValid = false ∧ t.errcode = 0 ∧ t.genN = 0 ∧ t.pending = 0 ∧ t.params = s.params ∧ t.host = rest ∧
      (∀ a, x = some (.read a) → t.rdata = 0) ∧
      ∀ i, t.genEntry i = Config.ramInit (s.resets + 1) .gen i ∧ t.synEntry i = Config.ramInit (s.resets + 1) .syn i ∧
        t.msgEntry i = Config.ramInit (s.resets + 1) .msg i

/-- R120, R121: every command but RS.DIV whose operands are legal is accepted in the first cycle out of reset. -/
def Obligations.FirstCycleAfterResetAcceptsCommands : Prop :=
  ∀ (s : State) (x : Option Access) (w : Word) (i : Instr) (rest : List HostMove), engineTurn s = false →
    s.host = .cycle true x :: .cycle false (some (.write 0 w)) :: rest → decode w = .ok i → i.opcode ≠ .rsDiv →
    i.wellFormed s.params = true →
    ∃ t : State, Host.Core.run core 2 s = .next t ∧ t.busy = true ∧ t.pending = w

/-- R17, R117: the state after reset meets the invariant. (That nothing is listed for the host is the model's: log entry 5.) -/
def Obligations.ResetStateMeetsTheInvariant : Prop := State.reset.Inv

/-! ### The whole machine -/

/-- Every step from a state that meets the invariant ends, if it ends in a next state, in one that meets it: the parameters stay legal, the
buffers canonical and within bounds, ERRCODE assigned and non-zero exactly with ERR (R24, R108), GEN a true generator (R30, R89), and a
command in flight one that passed its checks (R126). -/
def Obligations.EveryStepKeepsTheInvariant : Prop := ∀ s t : State, s.Inv → step s = .next t → t.Inv

/-- R110, R111: a run of moves that the unit carries out, reset cycles among them, never stops, from any state that meets the invariant. -/
def Obligations.OrdinaryHostNeverStopsTheMachine : Prop :=
  ∀ s : State, s.Inv → (∀ m ∈ s.host, m.carriedOut = true) → ∀ k : Nat, SafeRun k s

/-- R18: RESULT changes only by the completion of a GF command or by reset. -/
def Obligations.OnlyGfCommandsChangeResult : Prop :=
  ∀ s t : State, step s = .next t → s.stepResets = false → t.result ≠ s.result →
    engineTurn s = true ∧ ∃ i, decode s.pending = .ok i ∧
      (i.opcode = .gfExp ∨ i.opcode = .gfLog ∨ i.opcode = .gfMul ∨ i.opcode = .gfAdd)

/-- R22: ZERO changes only by the completion of a GF command, RS.DIV or RS.SYN, or by reset. -/
def Obligations.ZeroChangesOnlyByItsCommands : Prop :=
  ∀ s t : State, step s = .next t → s.stepResets = false → t.zero ≠ s.zero →
    engineTurn s = true ∧ ∃ i, decode s.pending = .ok i ∧ i.opcode ≠ .nop ∧ i.opcode ≠ .rsGen

/-- R21: ERR, once set, is cleared only by a STATUS write with bit 1 = 1 or by reset. -/
def Obligations.ErrIsStickyUntilAcknowledged : Prop :=
  ∀ s t : State, step s = .next t → s.stepResets = false → s.err = true → t.err = false →
    engineTurn s = false ∧ ∃ (m : HostMove) (rest : List HostMove) (v : Word), s.host = m :: rest ∧
      m.access? = some (.write 1 v) ∧ v.getLsbD 1 = true

/-- R23, R26: GEN_VALID is set only by RS.GEN, which writes its degree into GEN_N, and nothing but reset clears it. -/
def Obligations.GenValidIsClearedOnlyByReset : Prop :=
  ∀ s t : State, step s = .next t → s.stepResets = false →
    (s.genValid = true → t.genValid = true) ∧
    (t.genValid ≠ s.genValid ∨ t.genN ≠ s.genN → engineTurn s = true ∧ decode s.pending = .ok (.rsGen t.genN))

/-- R30, R31, R32: GEN is written only by RS.GEN, SYN only by RS.SYN, MSG only by RS.DIV or by a host write to one of its entries while
BUSY = 0. -/
def Obligations.BuffersHaveTheirOwnWriters : Prop :=
  ∀ s t : State, step s = .next t → s.stepResets = false →
    (t.gen ≠ s.gen → engineTurn s = true ∧ ∃ n, decode s.pending = .ok (.rsGen n)) ∧
    (t.syn ≠ s.syn → engineTurn s = true ∧ ∃ n l, decode s.pending = .ok (.rsSyn n l)) ∧
    (t.msg ≠ s.msg → (engineTurn s = true ∧ ∃ k, decode s.pending = .ok (.rsDiv k)) ∨
      (engineTurn s = false ∧ s.busy = false ∧ ∃ (m : HostMove) (rest : List HostMove) (a : BitVec 13) (v : Word),
        s.host = m :: rest ∧ m.access? = some (.write a v) ∧ 0x4000 ≤ 4 * a.toNat ∧
        4 * a.toNat < 0x4000 + 4 * s.params.msgDepth))

/-! ### The assembler -/

/-- R71: a command line assembles to one write of CMD with the word of its fields exactly when each operand fits its field. -/
def Obligations.AssemblerEmitsTheEncodedWord : Prop :=
  ∀ a b : Nat,
    assemble .nop = some [storeWord 0 0x00000000] ∧
    assemble (.gfExp a) =
      (if a ≤ 255 then some [storeWord 0 (BitVec.ofNat 32 (0x01000000 + a * 2 ^ 16))] else none) ∧
    assemble (.gfLog a) =
      (if a ≤ 255 then some [storeWord 0 (BitVec.ofNat 32 (0x02000000 + a * 2 ^ 16))] else none) ∧
    assemble (.gfMul a b) = (if a ≤ 255 ∧ b ≤ 255 then
      some [storeWord 0 (BitVec.ofNat 32 (0x03000000 + a * 2 ^ 16 + b * 2 ^ 8))] else none) ∧
    assemble (.gfAdd a b) = (if a ≤ 255 ∧ b ≤ 255 then
      some [storeWord 0 (BitVec.ofNat 32 (0x04000000 + a * 2 ^ 16 + b * 2 ^ 8))] else none) ∧
    assemble (.rsGen a) =
      (if a ≤ 255 then some [storeWord 0 (BitVec.ofNat 32 (0x10000000 + a * 2 ^ 16))] else none) ∧
    assemble (.rsDiv a) = (if a ≤ 65535 then some [storeWord 0 (BitVec.ofNat 32 (0x11000000 + a))] else none) ∧
    assemble (.rsSyn a b) = (if a ≤ 255 ∧ b ≤ 65535 then
      some [storeWord 0 (BitVec.ofNat 32 (0x12000000 + a * 2 ^ 16 + b))] else none)

/-- R73: the pseudo-instructions are their expansions. -/
def Obligations.PseudoInstructionsExpand : Prop :=
  assemble .errclr = assemble (.sw 0x0004 0x2) ∧
  (∀ a, assemble (.gfLi a) = assemble (.gfAdd a 0)) ∧ (∀ a, assemble (.gfSqr a) = assemble (.gfMul a a)) ∧
  (∀ k n, assemble (.rsChk k n) = assemble (.rsDiv (k + n))) ∧
  (∀ (i : Nat) (cs : List Nat), (∀ c ∈ cs, c < 2 ^ 32) → assemble (.msgLd i cs) =
    some ((List.range cs.length).map fun t => storeWord (0x4000 + 4 * (i + t)) (BitVec.ofNat 32 (cs.getD t 0)))) ∧
  ∀ i m, assemble (.msgRd i m) = assembleAll ((List.range m).map fun t => .lw (0x4000 + 4 * (i + t)))
end

