-- ==== Sys2Proof/Laws/Memory.lean ====
section
/-! SUPPORT. The laws of a buffer: what a store changes, and that every operation keeps the canonical form. -/

namespace Sys2Proof.Machine

@[simp] theorem Memory.lookup_nil (i : Nat) : Memory.lookup [] i = none := rfl

@[simp] theorem Memory.lookup_store_self (m : Memory) (i : Nat) (v : Byte) : (m.store i v).lookup i = some v := by
  induction m with
  | nil => simp [Memory.store, Memory.lookup]
  | cons c m ih =>
    obtain ⟨a, b⟩ := c
    simp only [Memory.store]
    split
    · simp [Memory.lookup]
    · split
      · simp [Memory.lookup]
      · rename_i h
        simp [Memory.lookup, ih, Ne.symm h]

theorem Memory.lookup_store_of_ne (m : Memory) {i j : Nat} (v : Byte) (h : i ≠ j) :
    (m.store i v).lookup j = m.lookup j := by
  induction m with
  | nil => simp [Memory.store, Memory.lookup, h]
  | cons c m ih =>
    obtain ⟨a, b⟩ := c
    simp only [Memory.store]
    split
    · simp [Memory.lookup, h]
    · split
      · subst i
        simp [Memory.lookup, h]
      · simp [Memory.lookup, ih]

/-- What a range store leaves: the list's values in its range, everything else as before. -/
theorem Memory.lookup_storeRange (vs : List Byte) (m : Memory) (i j : Nat) :
    (m.storeRange i vs).lookup j = if i ≤ j ∧ j < i + vs.length then vs[j - i]? else m.lookup j := by
  induction vs generalizing m i with
  | nil =>
    have : ¬(i ≤ j ∧ j < i + 0) := by omega
    simp only [Memory.storeRange, List.length_nil, if_neg this]
  | cons v vs ih =>
    rw [Memory.storeRange, ih]
    by_cases hji : j = i
    · subst hji
      simp
    · rw [Memory.lookup_store_of_ne _ _ (Ne.symm hji)]
      by_cases h : i + 1 ≤ j ∧ j < i + 1 + vs.length
      · have h' : i ≤ j ∧ j < i + (v :: vs).length := by simp only [List.length_cons]; omega
        rw [if_pos h, if_pos h', show j - i = (j - (i + 1)) + 1 by omega, List.getElem?_cons_succ]
      · have h' : ¬(i ≤ j ∧ j < i + (v :: vs).length) := by simp only [List.length_cons]; omega
        rw [if_neg h, if_neg h']

/-- Every listed index of a store was listed before or is the one stored to. -/
theorem Memory.mem_store {m : Memory} {i : Nat} {v : Byte} {c : Host.Cell} (h : c ∈ m.store i v) :
    c = (i, v) ∨ c ∈ m := by
  induction m with
  | nil => simpa [Memory.store] using h
  | cons d m ih =>
    obtain ⟨a, b⟩ := d
    simp only [Memory.store] at h
    split at h
    · simpa using h
    · split at h
      · rcases List.mem_cons.mp h with h | h
        · exact .inl h
        · exact .inr (List.mem_cons_of_mem _ h)
      · rcases List.mem_cons.mp h with h | h
        · exact .inr (h ▸ List.mem_cons_self)
        · exact (ih h).imp id (List.mem_cons_of_mem _)

theorem Memory.store_wf {m : Memory} (h : m.Wf) (i : Nat) (v : Byte) : (m.store i v).Wf := by
  induction m with
  | nil => simp [Memory.store, Memory.Wf]
  | cons c m ih =>
    obtain ⟨a, b⟩ := c
    obtain ⟨hlt, hm⟩ := List.pairwise_cons.mp h
    simp only [Memory.store]
    split
    · rename_i hia
      refine List.pairwise_cons.mpr ⟨fun d hd => ?_, h⟩
      rcases List.mem_cons.mp hd with rfl | hd
      · exact hia
      · exact Nat.lt_trans hia (hlt d hd)
    · split
      · rename_i hia
        subst hia
        exact List.pairwise_cons.mpr ⟨hlt, hm⟩
      · rename_i h1 h2
        refine List.pairwise_cons.mpr ⟨fun d hd => ?_, ih hm⟩
        rcases Memory.mem_store hd with rfl | hd
        · show a < i
          omega
        · exact hlt d hd

theorem Memory.store_below {m : Memory} {n i : Nat} (h : m.Below n) (hi : i < n) (v : Byte) : (m.store i v).Below n := by
  intro c hc
  rcases Memory.mem_store hc with rfl | hc
  · exact hi
  · exact h c hc

theorem Memory.storeRange_wf (vs : List Byte) {m : Memory} (h : m.Wf) (i : Nat) : (m.storeRange i vs).Wf := by
  induction vs generalizing m i with
  | nil => exact h
  | cons v vs ih => exact ih (Memory.store_wf h i v) (i + 1)

theorem Memory.storeRange_below (vs : List Byte) {m : Memory} {n i : Nat} (h : m.Below n) (hi : i + vs.length ≤ n) :
    (m.storeRange i vs).Below n := by
  induction vs generalizing m i with
  | nil => exact h
  | cons v vs ih =>
    have hlen : i + (vs.length + 1) ≤ n := hi
    exact ih (Memory.store_below h (by omega) v) (by omega)

/-- The buffers right after reset are in canonical form. -/
theorem reset_buffers_wf : State.reset.gen.Wf ∧ State.reset.syn.Wf ∧ State.reset.msg.Wf := by
  simp [State.reset]

end Sys2Proof.Machine
end

