-- ==== Sys2Proof/Laws/State.lean ====
section
/-! SUPPORT. One lemma for each field under each named update of State. Later proofs use these and never unfold a record update. -/

namespace Sys2Proof.Machine

@[simp] theorem reject_result (c : ErrCode) (s : State) : (reject c s).result = s.result := rfl
@[simp] theorem reject_busy (c : ErrCode) (s : State) : (reject c s).busy = s.busy := rfl
@[simp] theorem reject_err (c : ErrCode) (s : State) : (reject c s).err = true := rfl
@[simp] theorem reject_zero (c : ErrCode) (s : State) : (reject c s).zero = s.zero := rfl
@[simp] theorem reject_genValid (c : ErrCode) (s : State) : (reject c s).genValid = s.genValid := rfl
@[simp] theorem reject_errcode (c : ErrCode) (s : State) : (reject c s).errcode = c.code := rfl
@[simp] theorem reject_genN (c : ErrCode) (s : State) : (reject c s).genN = s.genN := rfl
@[simp] theorem reject_params (c : ErrCode) (s : State) : (reject c s).params = s.params := rfl
@[simp] theorem reject_pending (c : ErrCode) (s : State) : (reject c s).pending = s.pending := rfl
@[simp] theorem reject_gen (c : ErrCode) (s : State) : (reject c s).gen = s.gen := rfl
@[simp] theorem reject_syn (c : ErrCode) (s : State) : (reject c s).syn = s.syn := rfl
@[simp] theorem reject_msg (c : ErrCode) (s : State) : (reject c s).msg = s.msg := rfl
@[simp] theorem reject_rdata (c : ErrCode) (s : State) : (reject c s).rdata = s.rdata := rfl
@[simp] theorem reject_host (c : ErrCode) (s : State) : (reject c s).host = s.host := rfl
@[simp] theorem reject_plan (c : ErrCode) (s : State) : (reject c s).plan = s.plan := rfl
@[simp] theorem reject_latLeft (c : ErrCode) (s : State) : (reject c s).latLeft = s.latLeft := rfl
@[simp] theorem reject_draws (c : ErrCode) (s : State) : (reject c s).draws = s.draws := rfl
@[simp] theorem reject_resets (c : ErrCode) (s : State) : (reject c s).resets = s.resets := rfl

@[simp] theorem clearErr_result (s : State) : (clearErr s).result = s.result := rfl
@[simp] theorem clearErr_busy (s : State) : (clearErr s).busy = s.busy := rfl
@[simp] theorem clearErr_err (s : State) : (clearErr s).err = false := rfl
@[simp] theorem clearErr_zero (s : State) : (clearErr s).zero = s.zero := rfl
@[simp] theorem clearErr_genValid (s : State) : (clearErr s).genValid = s.genValid := rfl
@[simp] theorem clearErr_errcode (s : State) : (clearErr s).errcode = 0 := rfl
@[simp] theorem clearErr_genN (s : State) : (clearErr s).genN = s.genN := rfl
@[simp] theorem clearErr_params (s : State) : (clearErr s).params = s.params := rfl
@[simp] theorem clearErr_pending (s : State) : (clearErr s).pending = s.pending := rfl
@[simp] theorem clearErr_gen (s : State) : (clearErr s).gen = s.gen := rfl
@[simp] theorem clearErr_syn (s : State) : (clearErr s).syn = s.syn := rfl
@[simp] theorem clearErr_msg (s : State) : (clearErr s).msg = s.msg := rfl
@[simp] theorem clearErr_rdata (s : State) : (clearErr s).rdata = s.rdata := rfl
@[simp] theorem clearErr_host (s : State) : (clearErr s).host = s.host := rfl
@[simp] theorem clearErr_plan (s : State) : (clearErr s).plan = s.plan := rfl
@[simp] theorem clearErr_latLeft (s : State) : (clearErr s).latLeft = s.latLeft := rfl
@[simp] theorem clearErr_draws (s : State) : (clearErr s).draws = s.draws := rfl
@[simp] theorem clearErr_resets (s : State) : (clearErr s).resets = s.resets := rfl

@[simp] theorem accept_result (w : Word) (s : State) : (accept w s).result = s.result := rfl
@[simp] theorem accept_busy (w : Word) (s : State) : (accept w s).busy = true := rfl
@[simp] theorem accept_err (w : Word) (s : State) : (accept w s).err = s.err := rfl
@[simp] theorem accept_zero (w : Word) (s : State) : (accept w s).zero = s.zero := rfl
@[simp] theorem accept_genValid (w : Word) (s : State) : (accept w s).genValid = s.genValid := rfl
@[simp] theorem accept_errcode (w : Word) (s : State) : (accept w s).errcode = s.errcode := rfl
@[simp] theorem accept_genN (w : Word) (s : State) : (accept w s).genN = s.genN := rfl
@[simp] theorem accept_params (w : Word) (s : State) : (accept w s).params = s.params := rfl
@[simp] theorem accept_pending (w : Word) (s : State) : (accept w s).pending = w := rfl
@[simp] theorem accept_gen (w : Word) (s : State) : (accept w s).gen = s.gen := rfl
@[simp] theorem accept_syn (w : Word) (s : State) : (accept w s).syn = s.syn := rfl
@[simp] theorem accept_msg (w : Word) (s : State) : (accept w s).msg = s.msg := rfl
@[simp] theorem accept_rdata (w : Word) (s : State) : (accept w s).rdata = s.rdata := rfl
@[simp] theorem accept_host (w : Word) (s : State) : (accept w s).host = s.host := rfl
@[simp] theorem accept_plan (w : Word) (s : State) : (accept w s).plan = s.plan.tail := rfl
@[simp] theorem accept_latLeft (w : Word) (s : State) : (accept w s).latLeft = nextLatency s := rfl
@[simp] theorem accept_draws (w : Word) (s : State) : (accept w s).draws = s.draws + 1 := rfl
@[simp] theorem accept_resets (w : Word) (s : State) : (accept w s).resets = s.resets := rfl

@[simp] theorem writeResult_result (v : Byte) (s : State) : (writeResult v s).result = v := rfl
@[simp] theorem writeResult_busy (v : Byte) (s : State) : (writeResult v s).busy = s.busy := rfl
@[simp] theorem writeResult_err (v : Byte) (s : State) : (writeResult v s).err = s.err := rfl
@[simp] theorem writeResult_zero (v : Byte) (s : State) : (writeResult v s).zero = zeroOf v := rfl
@[simp] theorem writeResult_genValid (v : Byte) (s : State) : (writeResult v s).genValid = s.genValid := rfl
@[simp] theorem writeResult_errcode (v : Byte) (s : State) : (writeResult v s).errcode = s.errcode := rfl
@[simp] theorem writeResult_genN (v : Byte) (s : State) : (writeResult v s).genN = s.genN := rfl
@[simp] theorem writeResult_params (v : Byte) (s : State) : (writeResult v s).params = s.params := rfl
@[simp] theorem writeResult_pending (v : Byte) (s : State) : (writeResult v s).pending = s.pending := rfl
@[simp] theorem writeResult_gen (v : Byte) (s : State) : (writeResult v s).gen = s.gen := rfl
@[simp] theorem writeResult_syn (v : Byte) (s : State) : (writeResult v s).syn = s.syn := rfl
@[simp] theorem writeResult_msg (v : Byte) (s : State) : (writeResult v s).msg = s.msg := rfl
@[simp] theorem writeResult_rdata (v : Byte) (s : State) : (writeResult v s).rdata = s.rdata := rfl
@[simp] theorem writeResult_host (v : Byte) (s : State) : (writeResult v s).host = s.host := rfl
@[simp] theorem writeResult_plan (v : Byte) (s : State) : (writeResult v s).plan = s.plan := rfl
@[simp] theorem writeResult_latLeft (v : Byte) (s : State) : (writeResult v s).latLeft = s.latLeft := rfl
@[simp] theorem writeResult_draws (v : Byte) (s : State) : (writeResult v s).draws = s.draws := rfl
@[simp] theorem writeResult_resets (v : Byte) (s : State) : (writeResult v s).resets = s.resets := rfl

@[simp] theorem writeGenerator_result (n : Byte) (g : List Byte) (s : State) : (writeGenerator n g s).result = s.result := rfl
@[simp] theorem writeGenerator_busy (n : Byte) (g : List Byte) (s : State) : (writeGenerator n g s).busy = s.busy := rfl
@[simp] theorem writeGenerator_err (n : Byte) (g : List Byte) (s : State) : (writeGenerator n g s).err = s.err := rfl
@[simp] theorem writeGenerator_zero (n : Byte) (g : List Byte) (s : State) : (writeGenerator n g s).zero = s.zero := rfl
@[simp] theorem writeGenerator_genValid (n : Byte) (g : List Byte) (s : State) : (writeGenerator n g s).genValid = true := rfl
@[simp] theorem writeGenerator_errcode (n : Byte) (g : List Byte) (s : State) : (writeGenerator n g s).errcode = s.errcode := rfl
@[simp] theorem writeGenerator_genN (n : Byte) (g : List Byte) (s : State) : (writeGenerator n g s).genN = n := rfl
@[simp] theorem writeGenerator_params (n : Byte) (g : List Byte) (s : State) : (writeGenerator n g s).params = s.params := rfl
@[simp] theorem writeGenerator_pending (n : Byte) (g : List Byte) (s : State) : (writeGenerator n g s).pending = s.pending := rfl
@[simp] theorem writeGenerator_gen (n : Byte) (g : List Byte) (s : State) : (writeGenerator n g s).gen = s.gen.storeRange 0 g := rfl
@[simp] theorem writeGenerator_syn (n : Byte) (g : List Byte) (s : State) : (writeGenerator n g s).syn = s.syn := rfl
@[simp] theorem writeGenerator_msg (n : Byte) (g : List Byte) (s : State) : (writeGenerator n g s).msg = s.msg := rfl
@[simp] theorem writeGenerator_rdata (n : Byte) (g : List Byte) (s : State) : (writeGenerator n g s).rdata = s.rdata := rfl
@[simp] theorem writeGenerator_host (n : Byte) (g : List Byte) (s : State) : (writeGenerator n g s).host = s.host := rfl
@[simp] theorem writeGenerator_plan (n : Byte) (g : List Byte) (s : State) : (writeGenerator n g s).plan = s.plan := rfl
@[simp] theorem writeGenerator_latLeft (n : Byte) (g : List Byte) (s : State) : (writeGenerator n g s).latLeft = s.latLeft := rfl
@[simp] theorem writeGenerator_draws (n : Byte) (g : List Byte) (s : State) : (writeGenerator n g s).draws = s.draws := rfl
@[simp] theorem writeGenerator_resets (n : Byte) (g : List Byte) (s : State) : (writeGenerator n g s).resets = s.resets := rfl

@[simp] theorem writeEc_result (k : Nat) (ec : List Byte) (s : State) : (writeEc k ec s).result = s.result := rfl
@[simp] theorem writeEc_busy (k : Nat) (ec : List Byte) (s : State) : (writeEc k ec s).busy = s.busy := rfl
@[simp] theorem writeEc_err (k : Nat) (ec : List Byte) (s : State) : (writeEc k ec s).err = s.err := rfl
@[simp] theorem writeEc_zero (k : Nat) (ec : List Byte) (s : State) : (writeEc k ec s).zero = allZero ec := rfl
@[simp] theorem writeEc_genValid (k : Nat) (ec : List Byte) (s : State) : (writeEc k ec s).genValid = s.genValid := rfl
@[simp] theorem writeEc_errcode (k : Nat) (ec : List Byte) (s : State) : (writeEc k ec s).errcode = s.errcode := rfl
@[simp] theorem writeEc_genN (k : Nat) (ec : List Byte) (s : State) : (writeEc k ec s).genN = s.genN := rfl
@[simp] theorem writeEc_params (k : Nat) (ec : List Byte) (s : State) : (writeEc k ec s).params = s.params := rfl
@[simp] theorem writeEc_pending (k : Nat) (ec : List Byte) (s : State) : (writeEc k ec s).pending = s.pending := rfl
@[simp] theorem writeEc_gen (k : Nat) (ec : List Byte) (s : State) : (writeEc k ec s).gen = s.gen := rfl
@[simp] theorem writeEc_syn (k : Nat) (ec : List Byte) (s : State) : (writeEc k ec s).syn = s.syn := rfl
@[simp] theorem writeEc_msg (k : Nat) (ec : List Byte) (s : State) : (writeEc k ec s).msg = s.msg.storeRange k ec := rfl
@[simp] theorem writeEc_rdata (k : Nat) (ec : List Byte) (s : State) : (writeEc k ec s).rdata = s.rdata := rfl
@[simp] theorem writeEc_host (k : Nat) (ec : List Byte) (s : State) : (writeEc k ec s).host = s.host := rfl
@[simp] theorem writeEc_plan (k : Nat) (ec : List Byte) (s : State) : (writeEc k ec s).plan = s.plan := rfl
@[simp] theorem writeEc_latLeft (k : Nat) (ec : List Byte) (s : State) : (writeEc k ec s).latLeft = s.latLeft := rfl
@[simp] theorem writeEc_draws (k : Nat) (ec : List Byte) (s : State) : (writeEc k ec s).draws = s.draws := rfl
@[simp] theorem writeEc_resets (k : Nat) (ec : List Byte) (s : State) : (writeEc k ec s).resets = s.resets := rfl

@[simp] theorem writeSyndromes_result (v : List Byte) (s : State) : (writeSyndromes v s).result = s.result := rfl
@[simp] theorem writeSyndromes_busy (v : List Byte) (s : State) : (writeSyndromes v s).busy = s.busy := rfl
@[simp] theorem writeSyndromes_err (v : List Byte) (s : State) : (writeSyndromes v s).err = s.err := rfl
@[simp] theorem writeSyndromes_zero (v : List Byte) (s : State) : (writeSyndromes v s).zero = allZero v := rfl
@[simp] theorem writeSyndromes_genValid (v : List Byte) (s : State) : (writeSyndromes v s).genValid = s.genValid := rfl
@[simp] theorem writeSyndromes_errcode (v : List Byte) (s : State) : (writeSyndromes v s).errcode = s.errcode := rfl
@[simp] theorem writeSyndromes_genN (v : List Byte) (s : State) : (writeSyndromes v s).genN = s.genN := rfl
@[simp] theorem writeSyndromes_params (v : List Byte) (s : State) : (writeSyndromes v s).params = s.params := rfl
@[simp] theorem writeSyndromes_pending (v : List Byte) (s : State) : (writeSyndromes v s).pending = s.pending := rfl
@[simp] theorem writeSyndromes_gen (v : List Byte) (s : State) : (writeSyndromes v s).gen = s.gen := rfl
@[simp] theorem writeSyndromes_syn (v : List Byte) (s : State) : (writeSyndromes v s).syn = s.syn.storeRange 0 v := rfl
@[simp] theorem writeSyndromes_msg (v : List Byte) (s : State) : (writeSyndromes v s).msg = s.msg := rfl
@[simp] theorem writeSyndromes_rdata (v : List Byte) (s : State) : (writeSyndromes v s).rdata = s.rdata := rfl
@[simp] theorem writeSyndromes_host (v : List Byte) (s : State) : (writeSyndromes v s).host = s.host := rfl
@[simp] theorem writeSyndromes_plan (v : List Byte) (s : State) : (writeSyndromes v s).plan = s.plan := rfl
@[simp] theorem writeSyndromes_latLeft (v : List Byte) (s : State) : (writeSyndromes v s).latLeft = s.latLeft := rfl
@[simp] theorem writeSyndromes_draws (v : List Byte) (s : State) : (writeSyndromes v s).draws = s.draws := rfl
@[simp] theorem writeSyndromes_resets (v : List Byte) (s : State) : (writeSyndromes v s).resets = s.resets := rfl

@[simp] theorem writeMsg_result (i : Nat) (v : Byte) (s : State) : (writeMsg i v s).result = s.result := rfl
@[simp] theorem writeMsg_busy (i : Nat) (v : Byte) (s : State) : (writeMsg i v s).busy = s.busy := rfl
@[simp] theorem writeMsg_err (i : Nat) (v : Byte) (s : State) : (writeMsg i v s).err = s.err := rfl
@[simp] theorem writeMsg_zero (i : Nat) (v : Byte) (s : State) : (writeMsg i v s).zero = s.zero := rfl
@[simp] theorem writeMsg_genValid (i : Nat) (v : Byte) (s : State) : (writeMsg i v s).genValid = s.genValid := rfl
@[simp] theorem writeMsg_errcode (i : Nat) (v : Byte) (s : State) : (writeMsg i v s).errcode = s.errcode := rfl
@[simp] theorem writeMsg_genN (i : Nat) (v : Byte) (s : State) : (writeMsg i v s).genN = s.genN := rfl
@[simp] theorem writeMsg_params (i : Nat) (v : Byte) (s : State) : (writeMsg i v s).params = s.params := rfl
@[simp] theorem writeMsg_pending (i : Nat) (v : Byte) (s : State) : (writeMsg i v s).pending = s.pending := rfl
@[simp] theorem writeMsg_gen (i : Nat) (v : Byte) (s : State) : (writeMsg i v s).gen = s.gen := rfl
@[simp] theorem writeMsg_syn (i : Nat) (v : Byte) (s : State) : (writeMsg i v s).syn = s.syn := rfl
@[simp] theorem writeMsg_msg (i : Nat) (v : Byte) (s : State) : (writeMsg i v s).msg = s.msg.store i v := rfl
@[simp] theorem writeMsg_rdata (i : Nat) (v : Byte) (s : State) : (writeMsg i v s).rdata = s.rdata := rfl
@[simp] theorem writeMsg_host (i : Nat) (v : Byte) (s : State) : (writeMsg i v s).host = s.host := rfl
@[simp] theorem writeMsg_plan (i : Nat) (v : Byte) (s : State) : (writeMsg i v s).plan = s.plan := rfl
@[simp] theorem writeMsg_latLeft (i : Nat) (v : Byte) (s : State) : (writeMsg i v s).latLeft = s.latLeft := rfl
@[simp] theorem writeMsg_draws (i : Nat) (v : Byte) (s : State) : (writeMsg i v s).draws = s.draws := rfl
@[simp] theorem writeMsg_resets (i : Nat) (v : Byte) (s : State) : (writeMsg i v s).resets = s.resets := rfl

@[simp] theorem applyReset_result (s : State) : (applyReset s).result = 0 := rfl
@[simp] theorem applyReset_busy (s : State) : (applyReset s).busy = false := rfl
@[simp] theorem applyReset_err (s : State) : (applyReset s).err = false := rfl
@[simp] theorem applyReset_zero (s : State) : (applyReset s).zero = false := rfl
@[simp] theorem applyReset_genValid (s : State) : (applyReset s).genValid = false := rfl
@[simp] theorem applyReset_errcode (s : State) : (applyReset s).errcode = 0 := rfl
@[simp] theorem applyReset_genN (s : State) : (applyReset s).genN = 0 := rfl
@[simp] theorem applyReset_params (s : State) : (applyReset s).params = s.params := rfl
@[simp] theorem applyReset_pending (s : State) : (applyReset s).pending = 0 := rfl
@[simp] theorem applyReset_gen (s : State) : (applyReset s).gen = [] := rfl
@[simp] theorem applyReset_syn (s : State) : (applyReset s).syn = [] := rfl
@[simp] theorem applyReset_msg (s : State) : (applyReset s).msg = [] := rfl
@[simp] theorem applyReset_rdata (s : State) : (applyReset s).rdata = s.rdata := rfl
@[simp] theorem applyReset_host (s : State) : (applyReset s).host = s.host := rfl
@[simp] theorem applyReset_plan (s : State) : (applyReset s).plan = s.plan := rfl
@[simp] theorem applyReset_latLeft (s : State) : (applyReset s).latLeft = 0 := rfl
@[simp] theorem applyReset_draws (s : State) : (applyReset s).draws = s.draws := rfl
@[simp] theorem applyReset_resets (s : State) : (applyReset s).resets = s.resets + 1 := rfl

@[simp] theorem tick_result (s : State) : (tick s).result = s.result := rfl
@[simp] theorem tick_busy (s : State) : (tick s).busy = s.busy := rfl
@[simp] theorem tick_err (s : State) : (tick s).err = s.err := rfl
@[simp] theorem tick_zero (s : State) : (tick s).zero = s.zero := rfl
@[simp] theorem tick_genValid (s : State) : (tick s).genValid = s.genValid := rfl
@[simp] theorem tick_errcode (s : State) : (tick s).errcode = s.errcode := rfl
@[simp] theorem tick_genN (s : State) : (tick s).genN = s.genN := rfl
@[simp] theorem tick_params (s : State) : (tick s).params = s.params := rfl
@[simp] theorem tick_pending (s : State) : (tick s).pending = s.pending := rfl
@[simp] theorem tick_gen (s : State) : (tick s).gen = s.gen := rfl
@[simp] theorem tick_syn (s : State) : (tick s).syn = s.syn := rfl
@[simp] theorem tick_msg (s : State) : (tick s).msg = s.msg := rfl
@[simp] theorem tick_rdata (s : State) : (tick s).rdata = s.rdata := rfl
@[simp] theorem tick_host (s : State) : (tick s).host = s.host := rfl
@[simp] theorem tick_plan (s : State) : (tick s).plan = s.plan := rfl
@[simp] theorem tick_latLeft (s : State) : (tick s).latLeft = s.latLeft - 1 := rfl
@[simp] theorem tick_draws (s : State) : (tick s).draws = s.draws := rfl
@[simp] theorem tick_resets (s : State) : (tick s).resets = s.resets := rfl

@[simp] theorem loadPending_result (w : Word) (s : State) : (loadPending w s).result = s.result := rfl
@[simp] theorem loadPending_busy (w : Word) (s : State) : (loadPending w s).busy = true := rfl
@[simp] theorem loadPending_err (w : Word) (s : State) : (loadPending w s).err = s.err := rfl
@[simp] theorem loadPending_zero (w : Word) (s : State) : (loadPending w s).zero = s.zero := rfl
@[simp] theorem loadPending_genValid (w : Word) (s : State) : (loadPending w s).genValid = s.genValid := rfl
@[simp] theorem loadPending_errcode (w : Word) (s : State) : (loadPending w s).errcode = s.errcode := rfl
@[simp] theorem loadPending_genN (w : Word) (s : State) : (loadPending w s).genN = s.genN := rfl
@[simp] theorem loadPending_params (w : Word) (s : State) : (loadPending w s).params = s.params := rfl
@[simp] theorem loadPending_pending (w : Word) (s : State) : (loadPending w s).pending = w := rfl
@[simp] theorem loadPending_gen (w : Word) (s : State) : (loadPending w s).gen = s.gen := rfl
@[simp] theorem loadPending_syn (w : Word) (s : State) : (loadPending w s).syn = s.syn := rfl
@[simp] theorem loadPending_msg (w : Word) (s : State) : (loadPending w s).msg = s.msg := rfl
@[simp] theorem loadPending_rdata (w : Word) (s : State) : (loadPending w s).rdata = s.rdata := rfl
@[simp] theorem loadPending_host (w : Word) (s : State) : (loadPending w s).host = s.host := rfl
@[simp] theorem loadPending_plan (w : Word) (s : State) : (loadPending w s).plan = s.plan := rfl
@[simp] theorem loadPending_latLeft (w : Word) (s : State) : (loadPending w s).latLeft = 0 := rfl
@[simp] theorem loadPending_draws (w : Word) (s : State) : (loadPending w s).draws = s.draws := rfl
@[simp] theorem loadPending_resets (w : Word) (s : State) : (loadPending w s).resets = s.resets := rfl

@[simp] theorem State.afterMove_result (s : State) (rest : List HostMove) : (s.afterMove rest).result = s.result := rfl
@[simp] theorem State.afterMove_busy (s : State) (rest : List HostMove) : (s.afterMove rest).busy = s.busy := rfl
@[simp] theorem State.afterMove_err (s : State) (rest : List HostMove) : (s.afterMove rest).err = s.err := rfl
@[simp] theorem State.afterMove_zero (s : State) (rest : List HostMove) : (s.afterMove rest).zero = s.zero := rfl
@[simp] theorem State.afterMove_genValid (s : State) (rest : List HostMove) : (s.afterMove rest).genValid = s.genValid := rfl
@[simp] theorem State.afterMove_errcode (s : State) (rest : List HostMove) : (s.afterMove rest).errcode = s.errcode := rfl
@[simp] theorem State.afterMove_genN (s : State) (rest : List HostMove) : (s.afterMove rest).genN = s.genN := rfl
@[simp] theorem State.afterMove_params (s : State) (rest : List HostMove) : (s.afterMove rest).params = s.params := rfl
@[simp] theorem State.afterMove_pending (s : State) (rest : List HostMove) : (s.afterMove rest).pending = s.pending := rfl
@[simp] theorem State.afterMove_gen (s : State) (rest : List HostMove) : (s.afterMove rest).gen = s.gen := rfl
@[simp] theorem State.afterMove_syn (s : State) (rest : List HostMove) : (s.afterMove rest).syn = s.syn := rfl
@[simp] theorem State.afterMove_msg (s : State) (rest : List HostMove) : (s.afterMove rest).msg = s.msg := rfl
@[simp] theorem State.afterMove_rdata (s : State) (rest : List HostMove) : (s.afterMove rest).rdata = s.rdata := rfl
@[simp] theorem State.afterMove_host (s : State) (rest : List HostMove) : (s.afterMove rest).host = rest := rfl
@[simp] theorem State.afterMove_plan (s : State) (rest : List HostMove) : (s.afterMove rest).plan = s.plan := rfl
@[simp] theorem State.afterMove_latLeft (s : State) (rest : List HostMove) : (s.afterMove rest).latLeft = s.latLeft - 1 := rfl
@[simp] theorem State.afterMove_draws (s : State) (rest : List HostMove) : (s.afterMove rest).draws = s.draws := rfl
@[simp] theorem State.afterMove_resets (s : State) (rest : List HostMove) : (s.afterMove rest).resets = s.resets := rfl

@[simp] theorem State.rejected_result (s : State) (c : BitVec 4) : (s.rejected c).result = s.result := rfl
@[simp] theorem State.rejected_busy (s : State) (c : BitVec 4) : (s.rejected c).busy = s.busy := rfl
@[simp] theorem State.rejected_err (s : State) (c : BitVec 4) : (s.rejected c).err = true := rfl
@[simp] theorem State.rejected_zero (s : State) (c : BitVec 4) : (s.rejected c).zero = s.zero := rfl
@[simp] theorem State.rejected_genValid (s : State) (c : BitVec 4) : (s.rejected c).genValid = s.genValid := rfl
@[simp] theorem State.rejected_errcode (s : State) (c : BitVec 4) : (s.rejected c).errcode = c := rfl
@[simp] theorem State.rejected_genN (s : State) (c : BitVec 4) : (s.rejected c).genN = s.genN := rfl
@[simp] theorem State.rejected_params (s : State) (c : BitVec 4) : (s.rejected c).params = s.params := rfl
@[simp] theorem State.rejected_pending (s : State) (c : BitVec 4) : (s.rejected c).pending = s.pending := rfl
@[simp] theorem State.rejected_gen (s : State) (c : BitVec 4) : (s.rejected c).gen = s.gen := rfl
@[simp] theorem State.rejected_syn (s : State) (c : BitVec 4) : (s.rejected c).syn = s.syn := rfl
@[simp] theorem State.rejected_msg (s : State) (c : BitVec 4) : (s.rejected c).msg = s.msg := rfl
@[simp] theorem State.rejected_rdata (s : State) (c : BitVec 4) : (s.rejected c).rdata = s.rdata := rfl
@[simp] theorem State.rejected_host (s : State) (c : BitVec 4) : (s.rejected c).host = s.host := rfl
@[simp] theorem State.rejected_plan (s : State) (c : BitVec 4) : (s.rejected c).plan = s.plan := rfl
@[simp] theorem State.rejected_latLeft (s : State) (c : BitVec 4) : (s.rejected c).latLeft = s.latLeft := rfl
@[simp] theorem State.rejected_draws (s : State) (c : BitVec 4) : (s.rejected c).draws = s.draws := rfl
@[simp] theorem State.rejected_resets (s : State) (c : BitVec 4) : (s.rejected c).resets = s.resets := rfl

end Sys2Proof.Machine
end

