-- ==== Sys2Proof/Laws/Ops.lean ====
section
/-! SUPPORT. What each shared operation can do, said once: inversion lemmas that later proofs cite instead of unfolding. -/

namespace Sys2Proof.Machine

/-- A step is the engine's completion or the host's turn. -/
theorem step_cases (s : State) :
    (engineTurn s = true ∧ step s = completion s) ∨ (engineTurn s = false ∧ step s = hostTurn s) := by
  cases h : engineTurn s <;> simp [step, h]

theorem step_of_hostTurn {s : State} (h : engineTurn s = false) : step s = hostTurn s := by simp [step, h]

theorem engineTurn_iff (s : State) : engineTurn s = true ↔ s.busy = true ∧ s.latLeft = 0 := by simp [engineTurn]

/-- What a checked effect leaves: a rejection with the check's code, or the effect. -/
theorem perform_cases (c : Option ErrCode) (f : State → State) (s : State) :
    (∃ e, c = some e ∧ perform c f s = reject e s) ∨ (c = none ∧ perform c f s = f s) := by
  cases c <;> simp [perform]

@[simp] theorem perform_some (e : ErrCode) (f : State → State) (s : State) : perform (some e) f s = reject e s := rfl
@[simp] theorem perform_none (f : State → State) (s : State) : perform none f s = f s := rfl

/-- A completion answers a next state exactly through the meaning of the command that PENDING holds. -/
theorem completion_next {s t : State} (h : completion s = .next t) :
    ∃ i, decode s.pending = .ok i ∧ exec i { s with busy := false } = .next t := by
  unfold completion at h
  split at h
  · exact ⟨_, ‹_›, h⟩
  · cases h

/-- Everything a meaning can do: it always answers a next state, which is a rejection or one of the four ways to write. -/
theorem exec_cases (i : Instr) (s : State) :
    (exec i s = .next s ∧ i = .nop) ∨
    (∃ c, exec i s = .next (reject c s) ∧ operandCheck i s = some c) ∨
    (∃ v, exec i s = .next (writeResult v s) ∧ operandCheck i s = none) ∨
    (∃ n, i = .rsGen n ∧ exec i s = .next (writeGenerator n (genPoly n.toNat) s) ∧ operandCheck i s = none) ∨
    (∃ k, i = .rsDiv k ∧ exec i s = .next (writeEc k.toNat (rsRem (msgPrefix s k.toNat) (generator s)) s) ∧
      operandCheck i s = none) ∨
    (∃ n l, i = .rsSyn n l ∧ exec i s = .next (writeSyndromes (syndromes (msgPrefix s l.toNat) n.toNat) s) ∧
      operandCheck i s = none) := by
  cases i with
  | nop => exact .inl ⟨rfl, rfl⟩
  | gfExp a => exact .inr (.inr (.inl ⟨_, rfl, rfl⟩))
  | gfLog a =>
    simp only [exec, execGfLog, operandCheck, gfLogCheck]
    cases logRom a with
    | none => exact .inr (.inl ⟨_, rfl, rfl⟩)
    | some e => exact .inr (.inr (.inl ⟨_, rfl, rfl⟩))
  | gfMul a b => exact .inr (.inr (.inl ⟨_, rfl, rfl⟩))
  | gfAdd a b => exact .inr (.inr (.inl ⟨_, rfl, rfl⟩))
  | rsGen n =>
    rcases perform_cases (rsGenCheck n s) (writeGenerator n (genPoly n.toNat)) s with ⟨c, hc, h⟩ | ⟨hc, h⟩
    · exact .inr (.inl ⟨c, congrArg _ h, hc⟩)
    · exact .inr (.inr (.inr (.inl ⟨n, rfl, congrArg _ h, hc⟩)))
  | rsDiv k =>
    rcases perform_cases (rsDivCheck k s) (writeEc k.toNat (rsRem (msgPrefix s k.toNat) (generator s))) s with
      ⟨c, hc, h⟩ | ⟨hc, h⟩
    · exact .inr (.inl ⟨c, congrArg _ h, hc⟩)
    · exact .inr (.inr (.inr (.inr (.inl ⟨k, rfl, congrArg _ h, hc⟩))))
  | rsSyn n l =>
    rcases perform_cases (rsSynCheck n l s) (writeSyndromes (syndromes (msgPrefix s l.toNat) n.toNat)) s with
      ⟨c, hc, h⟩ | ⟨hc, h⟩
    · exact .inr (.inl ⟨c, congrArg _ h, hc⟩)
    · exact .inr (.inr (.inr (.inr (.inr ⟨n, l, rfl, congrArg _ h, hc⟩))))

/-- What a CMD write can do: a rejection, or an acceptance with BUSY 0 of a command that passes its check. -/
theorem issue_cases (w : Word) (s : State) :
    (∃ c, issue w s = reject c s) ∨
    (s.busy = false ∧ (∃ i, decode w = .ok i ∧ operandCheck i s = none) ∧ issue w s = accept w s) := by
  unfold issue
  split
  · exact .inl ⟨_, rfl⟩
  · rename_i hb
    split
    · exact .inl ⟨_, rfl⟩
    · rename_i i hi
      rcases perform_cases (operandCheck i s) (accept w) s with ⟨c, -, h⟩ | ⟨hc, h⟩
      · exact .inl ⟨c, h⟩
      · exact .inr ⟨by simpa using hb, ⟨i, hi, hc⟩, h⟩

/-- A read access changes `rdata` alone, and the count of free values. -/
theorem hostRead_cases (a : BitVec 13) (s : State) : ∃ v d, hostRead a s = { s with rdata := v, draws := d } := by
  unfold hostRead
  dsimp only
  split
  · exact ⟨_, _, rfl⟩
  · exact ⟨_, s.draws, rfl⟩

/-- What a write access can do. -/
theorem hostWrite_cases (a : BitVec 13) (v : Word) (s : State) :
    (Target.ofAddr s.params a = .cmd ∧ hostWrite a v s = issue v s) ∨
    (Target.ofAddr s.params a = .status ∧ v.getLsbD 1 = true ∧ hostWrite a v s = clearErr s) ∨
    (∃ i, Target.ofAddr s.params a = .msg i ∧ s.busy = true ∧ hostWrite a v s = reject .busyMsg s) ∨
    (∃ i, Target.ofAddr s.params a = .msg i ∧ s.busy = false ∧ hostWrite a v s = writeMsg i (v.setWidth 8) s) ∨
    hostWrite a v s = s := by
  unfold hostWrite
  split
  · exact .inl ⟨‹_›, rfl⟩
  · split
    · exact .inr (.inl ⟨‹_›, ‹_›, rfl⟩)
    · exact .inr (.inr (.inr (.inr rfl)))
  · split
    · exact .inr (.inr (.inl ⟨_, ‹_›, ‹_›, rfl⟩))
    · rename_i hb
      exact .inr (.inr (.inr (.inl ⟨_, ‹_›, by simpa using hb, rfl⟩)))
  all_goals exact .inr (.inr (.inr (.inr rfl)))

/-- A poll is a read of STATUS, after which `wait` stands again in front or does not. -/
theorem poll_cases (s : State) :
    poll s = hostRead statusAddr s ∨
    poll s = { hostRead statusAddr s with host := .wait :: (hostRead statusAddr s).host } := by
  unfold poll
  dsimp only
  split
  · exact .inr rfl
  · exact .inl rfl

/-- What a host move can do when it answers a next state. -/
theorem hostMove_next {m : HostMove} {s t : State} (h : hostMove m s = .next t) :
    (∃ rst x, m = .cycle rst x ∧ t = portCycle rst x s) ∨
    (∃ r x, m = .bridge r ∧ r.access = .ok x ∧ t = performAccess x s) ∨
    (m = .wait ∧ t = poll s) := by
  cases m with
  | cycle rst x => exact .inl ⟨rst, x, rfl, by simpa [hostMove] using h.symm⟩
  | bridge r =>
    simp only [hostMove] at h
    split at h
    · exact .inr (.inl ⟨r, _, rfl, ‹_›, by simpa using h.symm⟩)
    · cases h
  | wait => exact .inr (.inr ⟨rfl, by simpa [hostMove] using h.symm⟩)
  | outside r => cases h

/-- What the host's turn can do when it answers a next state. -/
theorem hostTurn_next {s t : State} (h : hostTurn s = .next t) :
    (s.host = [] ∧ t = tick s) ∨ (∃ m rest, s.host = m :: rest ∧ hostMove m (s.afterMove rest) = .next t) := by
  unfold hostTurn at h
  split at h
  · exact .inl ⟨‹_›, by simpa using h.symm⟩
  · exact .inr ⟨_, _, ‹_›, h⟩

end Sys2Proof.Machine
end

