-- ==== Sys2Proof/Laws/PerInstr.lean ====
section
/-! SUPPORT. Statements made for every command, one lemma a constructor. -/

namespace Sys2Proof.Laws.EncodeFields

/-- The encoded word has the command's opcode in [31:24] and zeros in its reserved fields (30_encoding.md R62, R66). -/
def Statement (i : Instr) : Prop :=
  fieldOpc (encode i) = i.opcode.byte ∧ encode i &&& i.opcode.reservedMask = 0

/-- Format S, whatever its fields: the opcode field. -/
theorem fieldOpc_formatS (opc a b : Byte) : fieldOpc (formatS opc a b) = opc := by
  apply BitVec.eq_of_getLsbD_eq
  intro j hj
  simp only [fieldOpc, formatS, BitVec.getLsbD_extractLsb', BitVec.getLsbD_append]
  interval_cases j <;> simp

/-- Format P, whatever its fields: the opcode field. -/
theorem fieldOpc_formatP (opc n : Byte) (k : BitVec 16) : fieldOpc (formatP opc n k) = opc := by
  apply BitVec.eq_of_getLsbD_eq
  intro j hj
  simp only [fieldOpc, formatP, BitVec.getLsbD_extractLsb', BitVec.getLsbD_append]
  interval_cases j <;> simp

/-- Format S: bits [7:0] are reserved and 0. -/
theorem formatS_low (opc a b : Byte) : formatS opc a b &&& 0x000000FF = 0 := by
  apply BitVec.eq_of_getLsbD_eq
  intro j hj
  simp only [formatS, BitVec.getLsbD_and, BitVec.getLsbD_append]
  interval_cases j <;> simp

/-- Format S with B = 0: bits [15:0] are 0. -/
theorem formatS_low_half (opc a : Byte) : formatS opc a 0 &&& 0x0000FFFF = 0 := by
  apply BitVec.eq_of_getLsbD_eq
  intro j hj
  simp only [formatS, BitVec.getLsbD_and, BitVec.getLsbD_append]
  interval_cases j <;> simp

/-- Format P with K = 0: bits [15:0] are 0. -/
theorem formatP_low_half (opc n : Byte) : formatP opc n 0 &&& 0x0000FFFF = 0 := by
  apply BitVec.eq_of_getLsbD_eq
  intro j hj
  simp only [formatP, BitVec.getLsbD_and, BitVec.getLsbD_append]
  interval_cases j <;> simp

/-- Format P with N = 0: bits [23:16] are 0. -/
theorem formatP_middle (opc : Byte) (k : BitVec 16) : formatP opc 0 k &&& 0x00FF0000 = 0 := by
  apply BitVec.eq_of_getLsbD_eq
  intro j hj
  simp only [formatP, BitVec.getLsbD_and, BitVec.getLsbD_append]
  interval_cases j <;> simp

theorem nop : Statement .nop := by unfold Statement; decide
theorem gfExp (a : Byte) : Statement (.gfExp a) := ⟨fieldOpc_formatS _ _ _, formatS_low_half _ _⟩
theorem gfLog (a : GfValue) : Statement (.gfLog a) := ⟨fieldOpc_formatS _ _ _, formatS_low_half _ _⟩
theorem gfMul (a b : GfValue) : Statement (.gfMul a b) := ⟨fieldOpc_formatS _ _ _, formatS_low _ _ _⟩
theorem gfAdd (a b : GfValue) : Statement (.gfAdd a b) := ⟨fieldOpc_formatS _ _ _, formatS_low _ _ _⟩
theorem rsGen (n : Byte) : Statement (.rsGen n) := ⟨fieldOpc_formatP _ _ _, formatP_low_half _ _⟩
theorem rsDiv (k : BitVec 16) : Statement (.rsDiv k) := ⟨fieldOpc_formatP _ _ _, formatP_middle _ _⟩
theorem rsSyn (n : Byte) (l : BitVec 16) : Statement (.rsSyn n l) := ⟨fieldOpc_formatP _ _ _, BitVec.and_zero⟩

end Sys2Proof.Laws.EncodeFields
end

