-- ==== Sys2Proof/Laws/Poly.lean ====
section
/-! SUPPORT. How long the lists of the Reed-Solomon algorithms are. -/

namespace Sys2Proof.Machine

@[simp] theorem polyScale_length (c : GfValue) (p : List GfValue) : (polyScale c p).length = p.length := by
  simp [polyScale]

@[simp] theorem polyXorFront_length (r p : List GfValue) : (polyXorFront r p).length = r.length := by
  induction r generalizing p with
  | nil => simp [polyXorFront]
  | cons x r ih => cases p <;> simp [polyXorFront, ih]

/-- One entry of a sum: `p` adds into the front of `r`. -/
theorem polyXorFront_getElem? (r p : List GfValue) (j : Nat) :
    (polyXorFront r p)[j]? = (r[j]?).map fun x => gfAdd x (p.getD j 0) := by
  induction r generalizing p j with
  | nil => simp [polyXorFront]
  | cons x r ih =>
    cases p with
    | nil => cases h : (x :: r)[j]? <;> simp [polyXorFront, gfAdd, h]
    | cons y p => cases j <;> simp [polyXorFront, ih]

@[simp] theorem genPolyStep_length (g : List GfValue) (i : Nat) : (genPolyStep g i).length = g.length + 1 := by
  simp [genPolyStep]

theorem genPoly_succ (n : Nat) : genPoly (n + 1) = genPolyStep (genPoly n) n := by
  simp [genPoly, List.range_succ]

theorem genPoly_length (n : Nat) : (genPoly n).length = n + 1 := by
  induction n with
  | zero => simp [genPoly]
  | succ n ih => rw [genPoly_succ, genPolyStep_length, ih]

@[simp] theorem remStep_length (g r : List GfValue) : (remStep g r).length = r.length - 1 := by
  cases r with
  | nil => rfl
  | cons x r => simp only [remStep]; split <;> simp

theorem remLoop_length (g : List GfValue) (k : Nat) (r : List GfValue) : (remLoop g k r).length = r.length - k := by
  induction k generalizing r with
  | zero => rfl
  | succ k ih => rw [remLoop, ih, remStep_length, Nat.sub_sub, Nat.add_comm]

theorem rsRem_length (d g : List GfValue) : (rsRem d g).length = g.length - 1 := by
  simp [rsRem, remLoop_length]

theorem syndromes_length (c : List GfValue) (n : Nat) : (syndromes c n).length = n := by
  simp [syndromes]

@[simp] theorem msgPrefix_length (s : State) (k : Nat) : (msgPrefix s k).length = k := by
  simp [msgPrefix]

@[simp] theorem generator_length (s : State) : (generator s).length = s.genN.toNat + 1 := by
  simp [generator]

end Sys2Proof.Machine
end

