-- ==== Sys2Proof/Tests/Slice0.lean ====
section
/-! SUPPORT. The model's own tests, with expected results from 95_test_vectors.md or worked by hand from the rules, and for each statement
with hypotheses a witness that meets them. -/

namespace Sys2Proof.Tests

open Sys2Proof Sys2Proof.Machine

/-! ### States to test on -/

/-- The unit after reset, with N_MAX = 30 and MSG_DEPTH = 64. -/
def tUnit : State := { State.reset with params := ⟨30, 64⟩ }

/-- The same, with moves for the host. -/
def tHost (ms : List HostMove) : State := { tUnit with host := ms }

/-- After `rs.gen 2` (95_test_vectors.md §4.5), with the data of vector D1 loaded. -/
def tGen : State :=
  { tUnit with gen := [(0, 1), (1, 3), (2, 2)], genN := 2, genValid := true, msg := [(0, 1), (1, 2), (2, 3)] }

/-- A command in flight, `lat` host moves from its completion. -/
def tBusy (w : Word) (lat : Nat) (ms : List HostMove) : State :=
  { tGen with pending := w, busy := true, latLeft := lat, host := ms }

/-- A port access out of reset. -/
def tMove (x : Access) : HostMove := .cycle false (some x)

/-- The next state of an outcome. -/
def nextOf (o : Host.Outcome State Fault Refusal) : Option State :=
  match o with
  | .next t => some t
  | .fault _ => none
  | .refused _ => none

theorem inv_with_host {s : State} (h : s.Inv) (ms : List HostMove) : State.Inv { s with host := ms } :=
  ⟨h.params, h.genWf, h.synWf, h.msgWf, h.genBelow, h.synBelow, h.msgBelow, h.errcodeAssigned, h.errIff, h.noGenerator,
    h.hasGenerator, h.pendingLegal, h.idle⟩

theorem tUnit_inv : tUnit.Inv :=
  ⟨by decide, by decide, by decide, by decide, by decide, by decide, by decide, by decide, by decide, by decide,
    by decide, by simp [tUnit, State.reset], by decide⟩

theorem tGen_inv : tGen.Inv :=
  ⟨by decide, by decide, by decide, by decide, by decide, by decide, by decide, by decide, by decide, by decide,
    by decide, by simp [tGen, tUnit, State.reset], by decide⟩

theorem tBusy_inv (w : Word) (lat : Nat) (ms : List HostMove) (i : Instr) (hd : decode w = .ok i)
    (hc : operandCheck i (tBusy w lat ms) = none) : (tBusy w lat ms).Inv :=
  ⟨tGen_inv.params, tGen_inv.genWf, tGen_inv.synWf, tGen_inv.msgWf, tGen_inv.genBelow, tGen_inv.synBelow,
    tGen_inv.msgBelow, tGen_inv.errcodeAssigned, tGen_inv.errIff, tGen_inv.noGenerator, tGen_inv.hasGenerator,
    fun _ => ⟨i, hd, hc⟩, fun h => by cases h⟩

/-! ### Decoding: words put together from the fields of R63, R64 and R66 -/

theorem test_decode_nop : decode 0b00000000000000000000000000000000 = .ok .nop := by decide
theorem test_decode_gfExp : decode 0b00000001000010000000000000000000 = .ok (.gfExp 8) := by decide
theorem test_decode_gfLog : decode 0b00000010000111010000000000000000 = .ok (.gfLog 29) := by decide
theorem test_decode_gfMul : decode 0b00000011010100111100101000000000 = .ok (.gfMul 0x53 0xCA) := by decide
theorem test_decode_gfAdd : decode 0b00000100010100111100101000000000 = .ok (.gfAdd 0x53 0xCA) := by decide
theorem test_decode_rsGen : decode 0b00010000000010100000000000000000 = .ok (.rsGen 10) := by decide
theorem test_decode_rsDiv : decode 0b00010001000000000000000000010000 = .ok (.rsDiv 16) := by decide
theorem test_decode_rsSyn : decode 0b00010010000010100000000000011010 = .ok (.rsSyn 10 26) := by decide

/-- The rejected words of 95_test_vectors.md §3. -/
theorem test_decode_rejected :
    [0x00000001, 0x00010000, 0x01080100, 0x0353CA01, 0x100A0001, 0x11010003].map decode =
      List.replicate 6 (.error .reservedField) ∧
    [0x05000000, 0x0F000000, 0x13000000, 0xFFFFFFFF].map decode = List.replicate 4 (.error .illegalOpcode) := by decide

theorem test_encode_vectors :
    [Instr.nop, .gfExp 255, .gfLog 29, .gfMul 0x53 0xCA, .gfAdd 0x53 0xCA, .rsGen 10, .rsDiv 65535, .rsSyn 10 26].map encode =
      [0x00000000, 0x01FF0000, 0x021D0000, 0x0353CA00, 0x0453CA00, 0x100A0000, 0x1100FFFF, 0x120A001A] := by decide

theorem test_decodeTableWord :
    decodeTableWord 32 0x11000003 = some (.rsDiv 3) ∧ decodeTableWord 32 0x11010003 = none := by decide

/-! ### WellFormed: an ill-formed term for each check -/

theorem test_wellFormed_gfLog_zero : Instr.wellFormed ⟨30, 64⟩ (.gfLog 0) = false := by decide
theorem test_wellFormed_rsGen_zero : Instr.wellFormed ⟨30, 64⟩ (.rsGen 0) = false := by decide
theorem test_wellFormed_rsGen_large : Instr.wellFormed ⟨30, 64⟩ (.rsGen 31) = false := by decide
theorem test_wellFormed_rsDiv_large : Instr.wellFormed ⟨30, 64⟩ (.rsDiv 64) = false := by decide
theorem test_wellFormed_rsSyn_zero : Instr.wellFormed ⟨30, 64⟩ (.rsSyn 0 26) = false := by decide
theorem test_wellFormed_rsSyn_large : Instr.wellFormed ⟨30, 64⟩ (.rsSyn 31 26) = false := by decide
theorem test_wellFormed_rsSyn_long : Instr.wellFormed ⟨30, 64⟩ (.rsSyn 10 65) = false := by decide
theorem test_wellFormed_boundaries :
    [Instr.nop, .gfExp 255, .gfLog 1, .gfMul 0 0, .gfAdd 0 0, .rsGen 30, .rsDiv 0, .rsDiv 63, .rsSyn 30 64, .rsSyn 1 0].all
      (Instr.wellFormed ⟨30, 64⟩) = true := by decide

/-! ### The field (95_test_vectors.md §2, §4.3) -/

theorem test_gfMul_vectors :
    gfMul 0x53 0xCA = 0x8F ∧ gfMul 255 255 = 226 ∧ gfMul 142 2 = 1 ∧ gfMul 0x57 0x83 = 0x31 ∧ gfMul 0 7 = 0 ∧
      gfMul 7 0 = 0 := by decide

theorem test_clmulMod_vectors : clmulMod 0x53 0xCA = 0x8F ∧ clmulMod 255 255 = 226 ∧ clmulMod 3 7 = 9 := by decide

theorem test_gfInverse_vectors :
    gfInverse 83 = some 140 ∧ gfInverse 255 = some 253 ∧ gfInverse 1 = some 1 ∧ gfInverse 0 = none := by decide

/-! ### Commands, one step each -/

/-- NOP leaves RESULT and STATUS (§4.8). -/
theorem test_nop : (nextOf (exec .nop tGen)) = some tGen := by decide

theorem test_gfExp_first_reduction :
    (nextOf (step (tUnit.withFetchWord 32 0x01080000))).map (fun t => (t.result, statusWord t)) = some (29, 0) := by decide

theorem test_gfExp_255 : (nextOf (exec (.gfExp 255) tUnit)).map (fun t => (t.result, t.zero)) = some (1, false) := by decide

theorem test_gfLog_one : (nextOf (exec (.gfLog 1) tUnit)).map (fun t => (t.result, t.zero)) = some (0, true) := by decide

/-- `gf.log 0` is rejected: STATUS = 0x302 (§3). -/
theorem test_gfLog_zero :
    (nextOf (step (tHost [tMove (.write 0 0x02000000)]))).map (fun t => (t.busy, statusWord t)) = some (false, 0x302) := by
  decide

theorem test_gfMul : (nextOf (exec (.gfMul 0x53 0xCA) tUnit)).map (fun t => (t.result, t.zero)) = some (143, false) := by
  decide

theorem test_gfAdd_same : (nextOf (exec (.gfAdd 0x53 0x53) tUnit)).map (fun t => (t.result, t.zero)) = some (0, true) := by
  decide

/-- `rs.gen 2` after `rs.gen 3`: the higher entry stays stale (§4.5, D19). -/
theorem test_rsGen_stale_entries :
    (nextOf (exec (.rsGen 2) { tUnit with gen := [(0, 1), (1, 7), (2, 14), (3, 8)], genN := 3, genValid := true })).map
      (fun t => (t.gen, t.genN)) = some ([(0, 1), (1, 3), (2, 2), (3, 8)], 2) := by decide

theorem test_rsGen_5 : genPoly 5 = [1, 31, 198, 63, 147, 116] := by decide

/-- Vector D1 (§4.6). -/
theorem test_rsDiv_d1 :
    (nextOf (exec (.rsDiv 3) tGen)).map (fun t => (t.msg, t.zero)) =
      some ([(0, 1), (1, 2), (2, 3), (3, 4), (4, 4)], false) := by decide

/-- Vector D11 (§4.6): the zero skip does not occur, the data are the HELLO WORLD codewords. -/
theorem test_rsDiv_d11 :
    rsRem [32, 91, 11, 120, 209, 114, 220, 77, 67, 64, 236, 17, 236, 17, 236, 17] (genPoly 10) =
      [196, 35, 39, 119, 235, 215, 231, 226, 93, 23] := by decide +kernel

theorem test_rsSyn_four :
    (nextOf (exec (.rsSyn 4 3) tGen)).map (fun t => (t.syn, t.zero)) =
      some ([(0, 0), (1, 3), (2, 27), (3, 83)], false) := by decide

/-- L = 0 gives zero syndromes and ZERO = 1 (§3). -/
theorem test_rsSyn_empty :
    (nextOf (exec (.rsSyn 1 0) tUnit)).map (fun t => (t.syn, t.zero)) = some ([(0, 0)], true) := by decide

/-! ### The port (95_test_vectors.md §6) -/

theorem test_msg_write_keeps_low_byte :
    (nextOf (step (tHost [tMove (.write 0x1000 0x1FF)]))).map (fun t => t.msg) = some [(0, 0xFF)] := by decide

theorem test_config_word :
    (nextOf (step (tHost [tMove (.read 4)]))).map (fun t => t.rdata) = some 0x0040001E := by decide

/-- Busy vectors (§6): the MSG write is lost with code 7, the command with code 6. -/
theorem test_busy_rejections :
    (nextOf (step (tBusy 0x10030000 1 [tMove (.write 0x1000 7)]))).map (fun t => (t.msg, statusWord t)) =
      some ([(0, 1), (1, 2), (2, 3)], 0x70B) ∧
    (nextOf (step (tBusy 0x10030000 1 [tMove (.write 0 0x10040000)]))).map (fun t => (t.pending, statusWord t)) =
      some (0x10030000, 0x60B) := by decide

/-- The engine's turn comes before the host's once the latency has passed (§7, P5). -/
theorem test_completion_before_host_move :
    (nextOf (step (tBusy 0x0353CA00 0 [tMove (.write 0x1000 7)]))).map (fun t => (t.result, t.busy, t.msg, t.host)) =
      some (143, false, [(0, 1), (1, 2), (2, 3)], [tMove (.write 0x1000 7)]) := by decide

/-- In reset an access has no effect, and the command in flight is abandoned (R118, R119). -/
theorem test_reset_cycle :
    (nextOf (step (tBusy 0x10030000 1 [.cycle true (some (.write 0x1000 7))]))).map
      (fun t => ((t.busy, t.genValid, t.genN), t.gen, t.msg, t.resets)) = some ((false, false, 0), [], [], 1) := by
  decide

/-! ### The assembler (30_encoding.md R71–R73) -/

theorem test_parseLine :
    parseLine ("gf.mul 0x5, 20 ;").toList = some (.gfMul 5 20) ∧ parseLine ("nop r1").toList = none := by decide +kernel

theorem test_assemble_refuses_wide_operand :
    assemble (.rsGen 256) = none ∧ assemble (.rsGen 0) = some [storeWord 0 0x10000000] ∧
      assemble (.rsChk 65535 1) = none := by decide

/-! ### Witnesses: the hypotheses of each statement can be met -/

theorem witness_EncodeOfDecodeIsTheWord : decode 0x120A001A = .ok (.rsSyn 10 26) := by decide

theorem witness_LogRomInvertsExpRom : (1 : GfValue) ≠ 0 ∧ (255 : GfValue) ≠ 0 ∧ expRom 175 = 255 := by decide

theorem witness_GfArithmeticIsAField : (255 : GfValue) ≠ 0 ∧ logRom 255 = some 175 ∧ logRom 1 = some 0 := by decide

theorem witness_NopWritesNothing : (0x00FFFFFF : Word) ≠ 0 ∧ (0x00FFFFFF : Word) >>> 24 = 0 := by decide

theorem witness_GfLogGivesExponentOrRejectsZero : (1 : GfValue) ≠ 0 ∧ (255 : GfValue) ≠ 0 ∧ (0 : GfValue) = 0 := by decide

theorem witness_GfMulAddsExponents : (0 : GfValue) = 0 ∧ (255 : GfValue) ≠ 0 ∧ (142 : GfValue) ≠ 0 := by decide

theorem witness_GfResultsDependOnOperandsAlone :
    (Instr.gfLog 29).opcode = .gfLog ∧ operandCheck (.gfLog 29) tUnit = none ∧
      (Instr.gfExp 255).opcode = .gfExp ∧ operandCheck (.gfExp 255) tUnit = none ∧
      (Instr.gfMul 0 255).opcode = .gfMul ∧ operandCheck (.gfMul 0 255) tUnit = none ∧
      (Instr.gfAdd 7 7).opcode = .gfAdd ∧ operandCheck (.gfAdd 7 7) tUnit = none := by decide

theorem witness_HostDividesByLogExpMul : (0x53 : GfValue) ≠ 0 := by decide

theorem witness_RsGenLoadsGenerator :
    ((1 : Byte) ≠ 0 ∧ (1 : Byte).toNat ≤ tUnit.params.nMax) ∧ ((30 : Byte) ≠ 0 ∧ (30 : Byte).toNat ≤ tUnit.params.nMax) ∧
      (31 : Byte).toNat > tUnit.params.nMax := by decide

theorem witness_GenPolyDegreeMonicConstantRoots : 1 ≤ 254 ∧ 254 ≤ 254 ∧ 253 < 254 := by decide

theorem witness_GenPolyHasNoZeroCoefficient : 2 ≤ 254 ∧ (3 : GfValue) ∈ genPoly 2 := by decide

/-- k = 0, the largest k that fits, and the two rejections. -/
theorem witness_RsDivWritesEcCodewords :
    tGen.genValid = true ∧ (0 : BitVec 16).toNat + tGen.genN.toNat ≤ tGen.params.msgDepth ∧
      (62 : BitVec 16).toNat + tGen.genN.toNat ≤ tGen.params.msgDepth ∧
      (63 : BitVec 16).toNat + tGen.genN.toNat > tGen.params.msgDepth ∧ tUnit.genValid = false := by decide

/-- The trace of D1 (95_test_vectors.md §4.6): the leads 1, 1, 2 are the quotient. -/
theorem witness_RsRemIsTheUniqueRemainder :
    ([1, 1, 2] : List GfValue).length = ([1, 2, 3] : List GfValue).length ∧
      ([4, 4] : List GfValue).length = ([3, 2] : List GfValue).length ∧
      polyXorFront (polyMul [1, 1, 2] [1, 3, 2]) (List.replicate 3 0 ++ [4, 4]) = [1, 2, 3] ++ List.replicate 2 0 := by
  decide

theorem witness_CodewordDividesWithoutRemainder :
    tGen.Inv ∧ tGen.genValid = true ∧ (62 : BitVec 16).toNat = (60 : BitVec 16).toNat + tGen.genN.toNat ∧
      (60 : BitVec 16).toNat + 2 * tGen.genN.toNat ≤ tGen.params.msgDepth :=
  ⟨tGen_inv, by decide, by decide, by decide⟩

theorem witness_RsSynWritesSyndromes :
    ((1 : Byte) ≠ 0 ∧ (1 : Byte).toNat ≤ tUnit.params.nMax ∧ (0 : BitVec 16).toNat ≤ tUnit.params.msgDepth) ∧
      ((30 : Byte) ≠ 0 ∧ (30 : Byte).toNat ≤ tUnit.params.nMax ∧ (64 : BitVec 16).toNat ≤ tUnit.params.msgDepth) ∧
      (31 : Byte).toNat > tUnit.params.nMax ∧ (65 : BitVec 16).toNat > tUnit.params.msgDepth := by decide

theorem witness_SyndromeIsTheSumOfPowers : 0 < 1 ∧ 1 ≤ 254 ∧ 253 < 254 ∧ 254 ≤ 254 := by decide

/-- A multiple of g_2 (vector D1), and a polynomial that is none. -/
theorem witness_SyndromesVanishExactlyOnMultiples :
    2 ≤ 254 ∧ syndromes [1, 2, 3, 4, 4] 2 = [0, 0] ∧ polyMul [1, 1, 2] (genPoly 2) = [1, 2, 3, 4, 4] ∧
      syndromes [1, 2, 3] 2 = [0, 3] := by decide

theorem witness_SyndromeTestAgreesWithDivision :
    tGen.Inv ∧ tGen.genValid = true ∧ (62 : BitVec 16).toNat + tGen.genN.toNat ≤ tGen.params.msgDepth :=
  ⟨tGen_inv, by decide, by decide⟩

/-- The four ends of the two ranges of reserved opcodes. -/
theorem witness_ReservedOpcodeIsRejected :
    ((tHost [tMove (.write 0 0x05000000)]).Presents (.write 0 0x05000000) [] ∧
      (tHost [tMove (.write 0 0x05000000)]).busy = false) ∧
      (5 ≤ ((0x05000000 : Word) >>> 24).toNat ∧ ((0x05000000 : Word) >>> 24).toNat ≤ 15) ∧
      (5 ≤ ((0x0FFFFFFF : Word) >>> 24).toNat ∧ ((0x0FFFFFFF : Word) >>> 24).toNat ≤ 15) ∧
      19 ≤ ((0x13000000 : Word) >>> 24).toNat ∧ 19 ≤ ((0xFFFFFFFF : Word) >>> 24).toNat := by decide

/-- One word for each clause. -/
theorem witness_ReservedFieldIsRejected :
    ((tHost [tMove (.write 0 1)]).Presents (.write 0 1) [] ∧ (tHost [tMove (.write 0 1)]).busy = false) ∧
      ((0x00000001 : Word) >>> 24 = 0x00 ∧ (0x00000001 : Word) &&& 0x00FFFFFF ≠ 0) ∧
      ((0x01080100 : Word) >>> 24 = 0x01 ∧ (0x01080100 : Word) &&& 0x0000FFFF ≠ 0) ∧
      ((0x02008000 : Word) >>> 24 = 0x02 ∧ (0x02008000 : Word) &&& 0x0000FFFF ≠ 0) ∧
      ((0x0353CA01 : Word) >>> 24 = 0x03 ∧ (0x0353CA01 : Word) &&& 0x000000FF ≠ 0) ∧
      ((0x04000080 : Word) >>> 24 = 0x04 ∧ (0x04000080 : Word) &&& 0x000000FF ≠ 0) ∧
      ((0x100A0001 : Word) >>> 24 = 0x10 ∧ (0x100A0001 : Word) &&& 0x0000FFFF ≠ 0) ∧
      ((0x11800003 : Word) >>> 24 = 0x11 ∧ (0x11800003 : Word) &&& 0x00FF0000 ≠ 0) := by decide

/-- A word for every command, at and beyond the ends of its operands' ranges, and for each rejection before the operand checks. -/
theorem witness_CommandIsCheckedThenAccepted :
    ((tHost [tMove (.write 0 0x101E0000)]).Presents (.write 0 0x101E0000) [] ∧
      (tHost [tMove (.write 0 0x101E0000)]).busy = false) ∧
      ((tBusy 0 1 [tMove (.write 0 0xFFFFFFFF)]).Presents (.write 0 0xFFFFFFFF) [] ∧
        (tBusy 0 1 [tMove (.write 0 0xFFFFFFFF)]).busy = true) ∧
      decode 0x05000000 = .error .illegalOpcode ∧ decode 0x00000001 = .error .reservedField ∧
      decode 0x00000000 = .ok .nop ∧ decode 0x01FF0000 = .ok (.gfExp 255) ∧ decode 0x02000000 = .ok (.gfLog 0) ∧
      decode 0x02010000 = .ok (.gfLog 1) ∧ decode 0x03FFFF00 = .ok (.gfMul 255 255) ∧
      decode 0x04FFFF00 = .ok (.gfAdd 255 255) ∧ decode 0x10000000 = .ok (.rsGen 0) ∧
      decode 0x101E0000 = .ok (.rsGen 30) ∧ decode 0x101F0000 = .ok (.rsGen 31) ∧ decode 0x1100003E = .ok (.rsDiv 62) ∧
      decode 0x1100003F = .ok (.rsDiv 63) ∧ decode 0x121E0040 = .ok (.rsSyn 30 64) ∧
      decode 0x121E0041 = .ok (.rsSyn 30 65) := by decide

/-- The first and the last entry of MSG. -/
theorem witness_BusyMsgWriteIsRejected :
    (∀ a : BitVec 13, (tBusy 0x11000003 1 [tMove (.write a 7)]).Presents (.write a 7) [] ∧
      (tBusy 0x11000003 1 [tMove (.write a 7)]).busy = true) ∧ tGen.params.Legal ∧
      ∀ n ∈ ([0x1000, 0x103F] : List Nat),
        0x4000 ≤ 4 * (BitVec.ofNat 13 n).toNat ∧ 4 * (BitVec.ofNat 13 n).toNat < 0x4000 + 4 * tGen.params.msgDepth :=
  ⟨fun _ => ⟨⟨rfl, rfl⟩, rfl⟩, by decide, by decide⟩

theorem witness_AcceptedOperandsAreTheLegalOnes :
    (tGen.Inv ∧ operandCheck (.rsDiv 62) tGen = none ∧ operandCheck (.gfLog 1) tGen = none) ∧
      Params.Legal ⟨1, 2⟩ ∧ Instr.wellFormed ⟨1, 2⟩ (.rsDiv 1) = true ∧ Params.Legal ⟨254, 4096⟩ ∧
      Instr.wellFormed ⟨254, 4096⟩ (.rsSyn 254 4096) = true :=
  ⟨⟨tGen_inv, by decide, by decide⟩, by decide, by decide, by decide, by decide⟩

theorem witness_StepRunsThePendingCommand :
    (tBusy 0x11000003 0 []).busy = true ∧ (tBusy 0x11000003 0 []).latLeft = 0 ∧
      decode (tBusy 0x11000003 0 []).pending = .ok (.rsDiv 3) := by decide

theorem witness_CompletionNeverRejects :
    (tBusy 0x1100003E 0 []).Inv ∧ (tBusy 0x1100003E 0 []).busy = true ∧ (tBusy 0x1100003E 0 []).latLeft = 0 :=
  ⟨tBusy_inv _ _ _ (.rsDiv 62) (by decide) (by decide), by decide, by decide⟩

theorem witness_HostCannotTouchEngineInputs :
    ∃ s t : State, s.busy = true ∧ 0 < s.latLeft ∧ s.stepResets = false ∧ step s = .next t :=
  ⟨tBusy 0x11000003 1 [tMove (.write 0x1000 7)], _, by decide, by decide, by decide, rfl⟩

theorem witness_AcceptedCommandCompletes :
    ∃ s : State, s.Inv ∧ s.busy = true ∧ ∀ m ∈ s.host, m.ordinary = true :=
  ⟨tBusy 0x11000003 2 [storeWord 0x4000 7, .wait, tMove (.write 0 0)],
    tBusy_inv _ _ _ (.rsDiv 3) (by decide) (by decide), by decide, by decide⟩

theorem witness_WaitEndsWithTheCommandsEffect :
    ∃ (s : State) (rest : List HostMove), s.Inv ∧ s.busy = true ∧ s.host = .wait :: rest :=
  ⟨tBusy 0x11000003 5 [.wait, loadWord 0x400C], [loadWord 0x400C],
    tBusy_inv _ _ _ (.rsDiv 3) (by decide) (by decide), by decide, by decide⟩

theorem witness_StatusReadAndAcknowledge :
    (tHost [tMove (.read 1)]).Presents (.read 1) [] ∧ (tBusy 0 1 [tMove (.read 1)]).Presents (.read 1) [] ∧
      (tHost [tMove (.write 1 2)]).Presents (.write 1 2) [] ∧ (tBusy 0 1 [tMove (.write 1 1)]).Presents (.write 1 1) [] ∧
      (2 : Word).getLsbD 1 = true ∧ (1 : Word).getLsbD 1 = false := by decide

theorem witness_ConfigReportsTheParameters :
    (tHost [tMove (.read 4)]).params.Legal ∧ (tHost [tMove (.read 4)]).Presents (.read 4) [] ∧
      (tHost [tMove (.write 4 9)]).Presents (.write 4 9) [] ∧ ∃ t, step (tHost []) = .next t :=
  ⟨by decide, by decide, by decide, _, rfl⟩

theorem witness_ResultAndGenNAreReadOnly :
    (tHost [tMove (.read 2)]).busy = false ∧ (tHost [tMove (.read 2)]).Presents (.read 2) [] ∧
      (tHost [tMove (.read 3)]).Presents (.read 3) [] ∧ (tHost [tMove (.write 2 5)]).Presents (.write 2 5) [] ∧
      (tBusy 0 1 [tMove (.write 3 5)]).Presents (.write 3 5) [] := by decide

/-- The first and the last entry of GEN and of SYN. -/
theorem witness_GenAndSynAreReadOnly :
    (∀ a : BitVec 13, (tHost [tMove (.read a)]).Presents (.read a) [] ∧
      (tHost [tMove (.write a 9)]).Presents (.write a 9) []) ∧ tUnit.params.Legal ∧ tUnit.busy = false ∧
      (∀ c ∈ ([(0x100, 0), (0x11E, 30)] : List (BitVec 13 × Nat)),
        c.2 ≤ tUnit.params.nMax ∧ 4 * c.1.toNat = 0x0400 + 4 * c.2) ∧
      ∀ c ∈ ([(0x200, 0), (0x21D, 29)] : List (BitVec 13 × Nat)),
        c.2 < tUnit.params.nMax ∧ 4 * c.1.toNat = 0x0800 + 4 * c.2 :=
  ⟨fun _ => ⟨⟨rfl, rfl⟩, ⟨rfl, rfl⟩⟩, by decide, by decide, by decide, by decide⟩

/-- The first and the last entry of MSG. -/
theorem witness_MsgEntryIsWrittenAndRead :
    (∀ a : BitVec 13, (tHost [tMove (.read a)]).Presents (.read a) [] ∧
      (tHost [tMove (.write a 0x1FF)]).Presents (.write a 0x1FF) []) ∧ tUnit.params.Legal ∧ tUnit.busy = false ∧
      ∀ c ∈ ([(0x1000, 0), (0x103F, 63)] : List (BitVec 13 × Nat)),
        c.2 < tUnit.params.msgDepth ∧ 4 * c.1.toNat = 0x4000 + 4 * c.2 :=
  ⟨fun _ => ⟨⟨rfl, rfl⟩, ⟨rfl, rfl⟩⟩, by decide, by decide, by decide⟩

/-- The ends of each reserved range. -/
theorem witness_AddressesDoNotAlias :
    (∀ a : BitVec 13, (tHost [tMove (.read a)]).Presents (.read a) [] ∧
      (tHost [tMove (.write a 1)]).Presents (.write a 1) []) ∧
      tUnit.params.Legal ∧ Target.ofAddr tUnit.params 0x11E ≠ .reserved ∧
      ∀ n ∈ ([5, 0xFF, 0x11F, 0x1FF, 0x21E, 0xFFF, 0x1040, 0x1FFF] : List Nat),
        (BitVec.ofNat 13 n).toNat = n ∧ ((0x0014 ≤ 4 * n ∧ 4 * n ≤ 0x03FC) ∨ (0x0400 + 4 * 30 < 4 * n ∧ 4 * n ≤ 0x07FC) ∨
          (0x0800 + 4 * 30 ≤ 4 * n ∧ 4 * n ≤ 0x3FFC) ∨ 0x4000 + 4 * 64 ≤ 4 * n) :=
  ⟨fun _ => ⟨⟨rfl, rfl⟩, ⟨rfl, rfl⟩⟩, by decide, by decide, by decide⟩

theorem witness_ReadsHaveNoSideEffect :
    (tBusy 0 1 [tMove (.read 2)]).Presents (.read 2) [] ∧ (tHost [tMove (.read 0)]).Presents (.read 0) [] := by decide

/-- The ends of each range. -/
theorem witness_BusyReadDrawsAFreshValue :
    (∀ a : BitVec 13, (tBusy 0 1 [tMove (.read a)]).Presents (.read a) [] ∧
      (tBusy 0 1 [tMove (.read a)]).busy = true) ∧ tGen.params.Legal ∧
      ∀ n ∈ ([2, 3, 0x100, 0x11E, 0x200, 0x21D, 0x1000, 0x103F] : List Nat),
        (BitVec.ofNat 13 n).toNat = n ∧ (n = 2 ∨ n = 3 ∨ (0x0400 ≤ 4 * n ∧ 4 * n ≤ 0x0400 + 4 * tGen.params.nMax) ∨
          (0x0800 ≤ 4 * n ∧ 4 * n < 0x0800 + 4 * tGen.params.nMax) ∨
          (0x4000 ≤ 4 * n ∧ 4 * n < 0x4000 + 4 * tGen.params.msgDepth)) :=
  ⟨fun _ => ⟨⟨rfl, rfl⟩, rfl⟩, by decide, by decide⟩

/-- A request for each clause. -/
theorem witness_BridgePassesWholeAlignedWords :
    (∀ r ∈ ([⟨0x7FFC, 4, none⟩, ⟨0, 4, some 1⟩, ⟨0, 2, none⟩, ⟨2, 4, none⟩, ⟨0x8000, 4, some 1⟩] : List BridgeRequest),
      engineTurn (tHost [.bridge r]) = false ∧ (tHost [.bridge r]).host = .bridge r :: []) ∧
      engineTurn (tHost [.outside .gfDivision]) = false ∧
      (tHost [.outside .gfDivision]).host = .outside .gfDivision :: [] := by decide

theorem witness_ResetEdgeSetsTheListedValues :
    engineTurn (tBusy 0 1 [.cycle true (some (.read 1))]) = false ∧
      (tBusy 0 1 [.cycle true (some (.read 1))]).host = .cycle true (some (.read 1)) :: [] ∧
      (∀ a : BitVec 13, (none : Option Access) ≠ some (.read a)) ∧
      engineTurn (tHost [.cycle true none]) = false := by
  exact ⟨by decide, by decide, nofun, by decide⟩

theorem witness_FirstCycleAfterResetAcceptsCommands :
    engineTurn (tBusy 0 1 [.cycle true none, tMove (.write 0 0x101E0000)]) = false ∧
      (tBusy 0 1 [.cycle true none, tMove (.write 0 0x101E0000)]).host =
        .cycle true none :: .cycle false (some (.write 0 0x101E0000)) :: [] ∧
      decode 0x101E0000 = .ok (.rsGen 30) ∧ (Instr.rsGen 30).opcode ≠ .rsDiv ∧
      (Instr.rsGen 30).wellFormed tGen.params = true := by decide

theorem witness_EveryStepKeepsTheInvariant : ∃ s t : State, s.Inv ∧ step s = .next t :=
  ⟨tBusy 0x11000003 0 [], _, tBusy_inv _ _ _ (.rsDiv 3) (by decide) (by decide), rfl⟩

/-- A run with a reset cycle in it. -/
theorem witness_OrdinaryHostNeverStopsTheMachine : ∃ s : State, s.Inv ∧ ∀ m ∈ s.host, m.carriedOut = true :=
  ⟨{ tGen with host := [commandMove (.rsDiv 3), .wait, tMove (.read 0x1003), .cycle true (some (.read 4)), commandMove .nop] }, inv_with_host tGen_inv _, by decide⟩

theorem witness_OnlyGfCommandsChangeResult :
    ∃ s t : State, step s = .next t ∧ s.stepResets = false ∧ t.result ≠ s.result :=
  ⟨tBusy 0x01080000 0 [], _, rfl, by decide, by decide⟩

theorem witness_ZeroChangesOnlyByItsCommands :
    ∃ s t : State, step s = .next t ∧ s.stepResets = false ∧ t.zero ≠ s.zero :=
  ⟨tBusy 0x04535300 0 [], _, rfl, by decide, by decide⟩

theorem witness_ErrIsStickyUntilAcknowledged :
    ∃ s t : State, step s = .next t ∧ s.stepResets = false ∧ s.err = true ∧ t.err = false :=
  ⟨{ tHost [tMove (.write 1 2)] with err := true, errcode := 3 }, _, rfl, by decide, by decide, by decide⟩

theorem witness_GenValidIsClearedOnlyByReset :
    (∃ s t : State, step s = .next t ∧ s.stepResets = false ∧ s.genValid = true) ∧
      ∃ s t : State, step s = .next t ∧ s.stepResets = false ∧ (t.genValid ≠ s.genValid ∨ t.genN ≠ s.genN) :=
  ⟨⟨tBusy 0x101E0000 1 [], _, rfl, by decide, by decide⟩, ⟨tBusy 0x10010000 0 [], _, rfl, by decide, by decide⟩⟩

theorem witness_BuffersHaveTheirOwnWriters :
    (∃ s t : State, step s = .next t ∧ s.stepResets = false ∧ t.gen ≠ s.gen) ∧
      (∃ s t : State, step s = .next t ∧ s.stepResets = false ∧ t.syn ≠ s.syn) ∧
      (∃ s t : State, step s = .next t ∧ s.stepResets = false ∧ t.msg ≠ s.msg) ∧
      ∃ s t : State, step s = .next t ∧ s.stepResets = false ∧ s.busy = false ∧ t.msg ≠ s.msg :=
  ⟨⟨tBusy 0x10030000 0 [], _, rfl, by decide, by decide⟩, ⟨tBusy 0x12010003 0 [], _, rfl, by decide, by decide⟩,
    ⟨tBusy 0x11000003 0 [], _, rfl, by decide, by decide⟩,
    ⟨tHost [tMove (.write 0x1000 7)], _, rfl, by decide, by decide, by decide⟩⟩

theorem witness_AssemblerEmitsTheEncodedWord : assemble (.gfMul 255 255) = some [storeWord 0 0x03FFFF00] := by decide

theorem witness_PseudoInstructionsExpand : ∀ c ∈ ([0, 255, 2 ^ 32 - 1] : List Nat), c < 2 ^ 32 := by decide

end Sys2Proof.Tests
end

section
/-! The slave port's statements (20_memory.md): one law for a presented read and one for a presented write, the address map read
backwards, and the fields of the STATUS and CONFIG words. -/

namespace Sys2Proof.Machine

/-! ### A presented access -/

/-- The step in which the host presents an access out of reset carries out that access. -/
theorem step_of_presents {s : State} {x : Access} {rest : List HostMove} (h : s.Presents x rest) :
    step s = .next (performAccess x (s.afterMove rest)) := by
  obtain ⟨hturn, hhost⟩ := h
  rw [step_of_hostTurn hturn, hostTurn, hhost]
  rfl

/-- Taking a move from the host's list changes no value a read can return. -/
@[simp] theorem Target.value_afterMove (t : Target) (s : State) (rest : List HostMove) :
    t.value (s.afterMove rest) = t.value s := by
  cases t <;> rfl

/-- A read of a target that is not hidden at the moment returns the target's value and changes `rdata` alone. -/
theorem hostRead_of_visible {s : State} {a : BitVec 13} {t : Target} (ht : Target.ofAddr s.params a = t)
    (hv : s.busy = false ∨ t.hiddenWhileBusy = false) : hostRead a s = { s with rdata := t.value s } := by
  have hshown : ¬(s.busy && t.hiddenWhileBusy) = true := by rcases hv with h | h <;> simp [h]
  subst ht
  exact if_neg hshown

theorem step_of_read {s : State} {a : BitVec 13} {rest : List HostMove} {t : Target} (h : s.Presents (.read a) rest)
    (ht : Target.ofAddr s.params a = t) (hv : s.busy = false ∨ t.hiddenWhileBusy = false) :
    step s = .next { s.afterMove rest with rdata := t.value s } := by
  rw [step_of_presents h, performAccess, hostRead_of_visible (by simpa using ht) (by simpa using hv),
    Target.value_afterMove]

/-- The targets whose writes are ignored, busy or not (20_memory.md R45–R48, R50, R51). -/
def Target.readOnly : Target → Bool
  | .result | .genN | .config | .gen _ | .syn _ | .reserved => true
  | .cmd | .status | .msg _ => false

theorem hostWrite_of_readOnly {s : State} {a : BitVec 13} (v : Word)
    (ht : (Target.ofAddr s.params a).readOnly = true) : hostWrite a v s = s := by
  rcases hostWrite_cases a v s with ⟨hc, -⟩ | ⟨hc, -⟩ | ⟨i, hc, -⟩ | ⟨i, hc, -⟩ | hsame
  case inr.inr.inr.inr => exact hsame
  all_goals simp [hc, Target.readOnly] at ht

theorem step_of_readOnly_write {s : State} {a : BitVec 13} {v : Word} {rest : List HostMove} {t : Target}
    (h : s.Presents (.write a v) rest) (ht : Target.ofAddr s.params a = t) (hro : t.readOnly = true) :
    step s = .next (s.afterMove rest) := by
  subst ht
  rw [step_of_presents h, performAccess, hostWrite_of_readOnly (s := s.afterMove rest) v hro]

/-! ### The address map -/

theorem ofAddr_status (p : Params) : Target.ofAddr p 1 = .status := rfl
theorem ofAddr_result (p : Params) : Target.ofAddr p 2 = .result := rfl
theorem ofAddr_genN (p : Params) : Target.ofAddr p 3 = .genN := rfl
theorem ofAddr_config (p : Params) : Target.ofAddr p 4 = .config := rfl

theorem ofByteAddr_gen {p : Params} {j : Nat} (hj : j ≤ p.nMax) : Target.ofByteAddr p (0x0400 + 4 * j) = .gen j := by
  unfold Target.ofByteAddr
  rw [if_neg (by omega), if_neg (by omega), if_neg (by omega), if_neg (by omega), if_neg (by omega), if_pos (by omega)]
  congr 1
  omega

/-- N_MAX ≤ 254 keeps GEN below 0x0800, where SYN begins. -/
theorem ofByteAddr_syn {p : Params} (hp : p.Legal) {j : Nat} (hj : j < p.nMax) :
    Target.ofByteAddr p (0x0800 + 4 * j) = .syn j := by
  obtain ⟨-, hn, -, -⟩ := hp
  unfold Target.ofByteAddr
  rw [if_neg (by omega), if_neg (by omega), if_neg (by omega), if_neg (by omega), if_neg (by omega), if_neg (by omega),
    if_pos (by omega)]
  congr 1
  omega

/-- N_MAX ≤ 254 keeps GEN and SYN below 0x4000, where MSG begins. -/
theorem ofByteAddr_msg {p : Params} (hp : p.Legal) {i : Nat} (hi : i < p.msgDepth) :
    Target.ofByteAddr p (0x4000 + 4 * i) = .msg i := by
  obtain ⟨-, hn, -, -⟩ := hp
  unfold Target.ofByteAddr
  rw [if_neg (by omega), if_neg (by omega), if_neg (by omega), if_neg (by omega), if_neg (by omega), if_neg (by omega),
    if_neg (by omega), if_pos (by omega)]
  congr 1
  omega

/-- The ranges of byte addresses that R51 reserves. -/
theorem ofByteAddr_reserved {p : Params} (hp : p.Legal) {b : Nat}
    (hb : (0x0014 ≤ b ∧ b ≤ 0x03FC) ∨ (0x0400 + 4 * p.nMax < b ∧ b ≤ 0x07FC) ∨
      (0x0800 + 4 * p.nMax ≤ b ∧ b ≤ 0x3FFC) ∨ 0x4000 + 4 * p.msgDepth ≤ b) :
    Target.ofByteAddr p b = .reserved := by
  obtain ⟨-, hn, -, -⟩ := hp
  unfold Target.ofByteAddr
  rw [if_neg (by omega), if_neg (by omega), if_neg (by omega), if_neg (by omega), if_neg (by omega), if_neg (by omega),
    if_neg (by omega), if_neg (by omega)]

/-- The byte address of a target (20_memory.md §2), the address map read backwards. `reserved` has no single one. -/
def Target.byteAddr : Target → Nat
  | .cmd => 0x0000
  | .status => 0x0004
  | .result => 0x0008
  | .genN => 0x000C
  | .config => 0x0010
  | .gen j => 0x0400 + 4 * j
  | .syn i => 0x0800 + 4 * i
  | .msg i => 0x4000 + 4 * i
  | .reserved => 0

/-- A word-aligned byte address is recovered from what it names. -/
theorem byteAddr_ofByteAddr {p : Params} {b : Nat} (hb : b % 4 = 0) (hr : Target.ofByteAddr p b ≠ .reserved) :
    (Target.ofByteAddr p b).byteAddr = b := by
  unfold Target.ofByteAddr at hr ⊢
  split_ifs at hr ⊢
  case neg => exact absurd rfl hr
  all_goals simp only [Target.byteAddr]; omega

theorem ofAddr_injective {p : Params} {a b : BitVec 13} (hab : Target.ofAddr p a = Target.ofAddr p b)
    (hr : Target.ofAddr p a ≠ .reserved) : a = b := by
  have ha : (Target.ofAddr p a).byteAddr = 4 * a.toNat := byteAddr_ofByteAddr (by omega) hr
  rw [hab] at ha hr
  have hb : (Target.ofAddr p b).byteAddr = 4 * b.toNat := byteAddr_ofByteAddr (by omega) hr
  exact BitVec.eq_of_toNat_eq (by omega)

/-! ### The STATUS word -/

theorem flagBit_getLsbD (b : Bool) (i : Nat) : (flagBit b).getLsbD i = (decide (i = 0) && b) := by
  cases b <;> simp [flagBit, BitVec.getLsbD_one]

/-- Every bit of the STATUS word (R44): the four flags, ERRCODE from bit 8 up, and 0 elsewhere. -/
theorem statusWord_getLsbD (s : State) {i : Nat} (hi : i < 32) :
    (statusWord s).getLsbD i =
      if i = 0 then s.busy else if i = 1 then s.err else if i = 2 then s.zero else if i = 3 then s.genValid
      else if i < 8 then false else s.errcode.getLsbD (i - 8) := by
  simp only [statusWord, BitVec.getLsbD_or, BitVec.getLsbD_shiftLeft, BitVec.getLsbD_setWidth, flagBit_getLsbD]
  interval_cases i <;> simp

theorem statusWord_errcode (s : State) : (statusWord s).extractLsb' 8 4 = s.errcode := by
  apply BitVec.eq_of_getLsbD_eq
  intro i hi
  rw [BitVec.getLsbD_extractLsb', statusWord_getLsbD s (by omega)]
  interval_cases i <;> simp

/-- A field of STATUS that lies within bits [7:4] or [31:12] is 0 (R25). -/
theorem statusWord_zero_field (s : State) {start len : Nat}
    (h : (4 ≤ start ∧ start + len ≤ 8) ∨ (12 ≤ start ∧ start + len ≤ 32)) :
    (statusWord s).extractLsb' start len = 0 := by
  apply BitVec.eq_of_getLsbD_eq
  intro i hi
  rw [BitVec.getLsbD_extractLsb', statusWord_getLsbD s (by omega), if_neg (by omega), if_neg (by omega),
    if_neg (by omega), if_neg (by omega)]
  rcases h with ⟨-, h⟩ | ⟨h, -⟩
  · rw [if_pos (by omega)]
    simp
  · rw [if_neg (by omega), BitVec.getLsbD_of_ge _ _ (by omega)]
    simp

/-! ### The CONFIG word -/

/-- Under the ranges of R7 and R8 the two fields of CONFIG do not overlap and nothing is cut off. -/
theorem configWord_toNat {p : Params} (hp : p.Legal) : (configWord p).toNat = p.msgDepth * 2 ^ 16 + p.nMax := by
  obtain ⟨-, hn, -, hd⟩ := hp
  have hlow : p.nMax < 2 ^ 16 := by omega
  simp only [configWord, BitVec.toNat_or, BitVec.toNat_shiftLeft, BitVec.toNat_setWidth, BitVec.toNat_ofNat]
  rw [Nat.mod_eq_of_lt (show p.msgDepth < 2 ^ 13 by omega), Nat.mod_eq_of_lt (show p.nMax < 2 ^ 8 by omega),
    Nat.mod_eq_of_lt (show p.msgDepth < 2 ^ 32 by omega), Nat.mod_eq_of_lt (show p.nMax < 2 ^ 32 by omega),
    Nat.mod_eq_of_lt (by rw [Nat.shiftLeft_eq]; omega), ← Nat.shiftLeft_add_eq_or_of_lt hlow, Nat.shiftLeft_eq]

/-- A field of CONFIG as a number. -/
theorem configWord_field {p : Params} (hp : p.Legal) (start len : Nat) :
    ((configWord p).extractLsb' start len).toNat = (p.msgDepth * 2 ^ 16 + p.nMax) / 2 ^ start % 2 ^ len := by
  rw [BitVec.extractLsb'_toNat, configWord_toNat hp, Nat.shiftRight_eq_div_pow]

/-! ### No step writes CONFIG -/

@[simp] theorem hostRead_params (a : BitVec 13) (s : State) : (hostRead a s).params = s.params := by
  obtain ⟨v, d, h⟩ := hostRead_cases a s
  rw [h]

@[simp] theorem issue_params (w : Word) (s : State) : (issue w s).params = s.params := by
  rcases issue_cases w s with ⟨c, h⟩ | ⟨-, -, h⟩ <;> simp [h]

@[simp] theorem hostWrite_params (a : BitVec 13) (v : Word) (s : State) : (hostWrite a v s).params = s.params := by
  rcases hostWrite_cases a v s with ⟨-, h⟩ | ⟨-, -, h⟩ | ⟨i, -, -, h⟩ | ⟨i, -, -, h⟩ | h <;> simp [h]

@[simp] theorem performAccess_params (x : Access) (s : State) : (performAccess x s).params = s.params := by
  cases x <;> simp [performAccess]

@[simp] theorem accessInReset_params (x : Option Access) (s : State) : (accessInReset x s).params = s.params := by
  rcases x with _ | ⟨_ | _⟩ <;> rfl

@[simp] theorem portCycle_params (rst : Bool) (x : Option Access) (s : State) : (portCycle rst x s).params = s.params := by
  cases rst <;> cases x <;> simp [portCycle]

@[simp] theorem poll_params (s : State) : (poll s).params = s.params := by
  rcases poll_cases s with h | h <;> simp [h]

theorem hostTurn_params {s t : State} (h : hostTurn s = .next t) : t.params = s.params := by
  rcases hostTurn_next h with ⟨-, rfl⟩ | ⟨m, rest, -, hm⟩
  · simp
  · rcases hostMove_next hm with ⟨rst, x, -, rfl⟩ | ⟨r, x, -, -, rfl⟩ | ⟨-, rfl⟩ <;> simp

theorem exec_params {i : Instr} {s t : State} (h : exec i s = .next t) : t.params = s.params := by
  rcases exec_cases i s with ⟨he, -⟩ | ⟨c, he, -⟩ | ⟨v, he, -⟩ | ⟨n, -, he, -⟩ | ⟨k, -, he, -⟩ | ⟨n, l, -, he, -⟩ <;>
    cases he.symm.trans h <;> rfl

theorem step_params {s t : State} (h : step s = .next t) : t.params = s.params := by
  rcases step_cases s with ⟨-, hs⟩ | ⟨-, hs⟩ <;> rw [hs] at h
  · obtain ⟨i, -, hi⟩ := completion_next h
    exact (exec_params hi :)
  · exact hostTurn_params h

/-! ### MSG entries -/

@[simp] theorem msgEntry_writeMsg_self (i : Nat) (v : Byte) (s : State) : (writeMsg i v s).msgEntry i = v := by
  simp [State.msgEntry, Memory.entry]

theorem msgEntry_writeMsg_of_ne {i j : Nat} (v : Byte) (s : State) (hji : j ≠ i) :
    (writeMsg i v s).msgEntry j = s.msgEntry j := by
  simp [State.msgEntry, Memory.entry, Memory.lookup_store_of_ne _ _ hji.symm]

/-- A write of a MSG entry while BUSY = 0 (R49). -/
theorem step_of_msg_write {s : State} {a : BitVec 13} {v : Word} {rest : List HostMove} {i : Nat}
    (h : s.Presents (.write a v) rest) (ht : Target.ofAddr s.params a = .msg i) (hb : s.busy = false) :
    step s = .next (writeMsg i (v.setWidth 8) (s.afterMove rest)) := by
  rw [step_of_presents h]
  simp [performAccess, hostWrite, ht, hb]

/-- A write of STATUS, busy or not (R44). -/
theorem step_of_status_write {s : State} {v : Word} {rest : List HostMove} (h : s.Presents (.write 1 v) rest) :
    step s = .next (if v.getLsbD 1 then clearErr (s.afterMove rest) else s.afterMove rest) := by
  rw [step_of_presents h]
  rfl

/-! ### The obligations -/

/-- Settles O38: a read returns `statusWord`, whose fields are read off bit by bit. -/
theorem statusReadAndAcknowledge : Obligations.StatusReadAndAcknowledge := by
  intro s rest
  refine ⟨fun h => ⟨statusWord s, step_of_read h (ofAddr_status _) (.inr rfl), ?_⟩,
    fun v h => ⟨fun hv => ?_, fun hv => ?_⟩⟩
  · exact ⟨statusWord_getLsbD s (by decide), statusWord_getLsbD s (by decide), statusWord_getLsbD s (by decide),
      statusWord_getLsbD s (by decide), statusWord_zero_field s (by decide), statusWord_errcode s,
      statusWord_zero_field s (by decide)⟩
  · rw [step_of_status_write h, if_pos hv]
    rfl
  · rw [step_of_status_write h, hv]
    rfl

/-- Settles O39: the fields of CONFIG from its value as a number, and its constancy from what a step can do. -/
theorem configReportsTheParameters : Obligations.ConfigReportsTheParameters := by
  refine ⟨fun s t h => step_params h, fun s rest hp => ⟨fun h => ?_, fun v h => ?_⟩⟩
  · refine ⟨configWord s.params, step_of_read h (ofAddr_config _) (.inr rfl), ?_⟩
    have hfield := configWord_field hp
    obtain ⟨-, hn, -, hd⟩ := hp
    refine ⟨?_, BitVec.eq_of_toNat_eq ?_, ?_, BitVec.eq_of_toNat_eq ?_⟩
    · rw [hfield]; omega
    · rw [hfield]; change _ = 0; omega
    · rw [hfield]; omega
    · rw [hfield]; change _ = 0; omega
  · exact step_of_readOnly_write h (ofAddr_config _) rfl

/-- Settles O40: both registers are visible with BUSY = 0 and read-only always. -/
theorem resultAndGenNAreReadOnly : Obligations.ResultAndGenNAreReadOnly := by
  refine fun s rest => ⟨fun hb h => step_of_read h (ofAddr_result _) (.inl hb),
    fun hb h => step_of_read h (ofAddr_genN _) (.inl hb), fun v h => ?_⟩
  rcases h with h | h
  · exact step_of_readOnly_write h (ofAddr_result _) rfl
  · exact step_of_readOnly_write h (ofAddr_genN _) rfl

/-- Settles O41: the address names the entry, which is visible with BUSY = 0 and read-only always. -/
theorem genAndSynAreReadOnly : Obligations.GenAndSynAreReadOnly := by
  intro s a rest j hp
  constructor
  · intro hj ha
    have ht : Target.ofAddr s.params a = .gen j := by rw [Target.ofAddr, ha, ofByteAddr_gen hj]
    exact ⟨fun hb h => step_of_read h ht (.inl hb), fun v h => step_of_readOnly_write h ht rfl⟩
  · intro hj ha
    have ht : Target.ofAddr s.params a = .syn j := by rw [Target.ofAddr, ha, ofByteAddr_syn hp hj]
    exact ⟨fun hb h => step_of_read h ht (.inl hb), fun v h => step_of_readOnly_write h ht rfl⟩

/-- Settles O42: the write is `writeMsg i v[7:0]`, and a buffer's store leaves every other entry. -/
theorem msgEntryIsWrittenAndRead : Obligations.MsgEntryIsWrittenAndRead := by
  intro s a rest i hp hb hi ha
  have ht : Target.ofAddr s.params a = .msg i := by rw [Target.ofAddr, ha, ofByteAddr_msg hp hi]
  refine ⟨fun h => step_of_read h ht (.inl hb), fun v h => ⟨_, step_of_msg_write h ht hb, rfl, ?_, fun j hj => ?_⟩⟩
  · exact msgEntry_writeMsg_self ..
  · exact msgEntry_writeMsg_of_ne _ (s.afterMove rest) hj

/-- Settles O43: an address is recovered from its target, and R51's ranges name `reserved`, which reads 0 and is read-only. -/
theorem addressesDoNotAlias : Obligations.AddressesDoNotAlias := by
  refine fun p hp => ⟨fun a b hab hr => ofAddr_injective hab hr, ?_⟩
  rintro s a rest rfl hb
  have ht : Target.ofAddr s.params a = .reserved := ofByteAddr_reserved hp hb
  exact ⟨fun h => step_of_read h ht (.inr rfl), fun v h => step_of_readOnly_write h ht rfl⟩

end Sys2Proof.Machine
end

section
/-! The command words (30_encoding.md): the opcode map and the decoder said as equivalences, the match/mask pairs of R66, and the two
rejections that the decoder itself makes at a CMD write (R68, R69). -/

namespace Sys2Proof

/-! ### The opcode map (R66) -/

theorem Opcode.ofByte_byte (op : Opcode) : Opcode.ofByte op.byte = some op := by cases op <;> rfl

theorem Opcode.byte_of_ofByte {b : Byte} {op : Opcode} (h : Opcode.ofByte b = some op) : b = op.byte := by
  unfold Opcode.ofByte at h
  split_ifs at h <;> cases h <;> assumption

theorem Opcode.ofByte_eq_some_iff {b : Byte} {op : Opcode} : Opcode.ofByte b = some op ↔ b = op.byte :=
  ⟨Opcode.byte_of_ofByte, fun h => h ▸ op.ofByte_byte⟩

/-- The ranges of opcodes that R68 reserves. -/
theorem Opcode.ofByte_reserved {b : Byte} (hb : (5 ≤ b.toNat ∧ b.toNat ≤ 15) ∨ 19 ≤ b.toNat) :
    Opcode.ofByte b = none := by
  rw [Option.eq_none_iff_forall_ne_some]
  intro op hop
  rw [Opcode.ofByte_eq_some_iff] at hop
  subst hop
  revert hb
  cases op <;> decide

/-! ### The decoder (R67) -/

@[simp] theorem Opcode.operands_opcode (op : Opcode) (w : Word) : (op.operands w).opcode = op := by cases op <;> rfl

theorem decode_of_reservedOpcode {w : Word} (h : Opcode.ofByte (fieldOpc w) = none) :
    decode w = .error .illegalOpcode := by
  simp [decode, h]

theorem decode_of_opcode {w : Word} {op : Opcode} (h : fieldOpc w = op.byte) :
    decode w = if w &&& op.reservedMask ≠ 0 then .error .reservedField else .ok (op.operands w) := by
  simp only [decode, h, op.ofByte_byte]

/-- A word decodes to a command of opcode `op` exactly when OPC names `op` and the fields reserved for `op` are zero. -/
theorem exists_decode_opcode_iff {w : Word} {op : Opcode} :
    (∃ i, decode w = .ok i ∧ i.opcode = op) ↔ fieldOpc w = op.byte ∧ w &&& op.reservedMask = 0 := by
  constructor
  · rintro ⟨i, hi, rfl⟩
    cases hopc : Opcode.ofByte (fieldOpc w) with
    | none => simp [decode_of_reservedOpcode hopc] at hi
    | some op =>
      rw [Opcode.ofByte_eq_some_iff] at hopc
      rw [decode_of_opcode hopc] at hi
      split_ifs at hi with hres
      cases hi
      rw [Opcode.operands_opcode]
      exact ⟨hopc, not_not.mp hres⟩
  · rintro ⟨hopc, hres⟩
    exact ⟨op.operands w, by rw [decode_of_opcode hopc, if_neg (not_not.mpr hres)], op.operands_opcode w⟩

/-! ### A word as its OPC field and the bits below it -/

theorem fieldOpc_and (v w : Word) : fieldOpc (v &&& w) = fieldOpc v &&& fieldOpc w := BitVec.extractLsb'_and ..

theorem fieldOpc_toNat (w : Word) : (fieldOpc w).toNat = (w >>> 24).toNat := by
  rw [fieldOpc, BitVec.extractLsb'_toNat, BitVec.toNat_ushiftRight, Nat.shiftRight_eq_div_pow]
  omega

theorem fieldOpc_of_ushiftRight {w : Word} {b : Byte} (h : w >>> 24 = b.setWidth 32) : fieldOpc w = b :=
  BitVec.eq_of_toNat_eq (by rw [fieldOpc_toNat, h, BitVec.toNat_setWidth]; omega)

theorem toNat_and_low (w : Word) : (w &&& 0x00FFFFFF).toNat = w.toNat % 2 ^ 24 :=
  (BitVec.toNat_and ..).trans (Nat.and_two_pow_sub_one_eq_mod w.toNat 24)

theorem word_ext_iff {v w : Word} : v = w ↔ fieldOpc v = fieldOpc w ∧ v &&& 0x00FFFFFF = w &&& 0x00FFFFFF := by
  refine ⟨fun h => h ▸ ⟨rfl, rfl⟩, fun ⟨hopc, hlow⟩ => BitVec.eq_of_toNat_eq ?_⟩
  have hopc := congrArg BitVec.toNat hopc
  have hlow := congrArg BitVec.toNat hlow
  rw [fieldOpc_toNat, fieldOpc_toNat, BitVec.toNat_ushiftRight, BitVec.toNat_ushiftRight, Nat.shiftRight_eq_div_pow,
    Nat.shiftRight_eq_div_pow] at hopc
  rw [toNat_and_low, toNat_and_low] at hlow
  omega

/-! ### The match/mask pairs (R66) -/

/-- The `mask` of R66: OPC and the reserved fields. -/
def Opcode.matchMask (op : Opcode) : Word := 0xFF000000 ||| op.reservedMask

/-- The `match` of R66: the opcode, all other bits zero. -/
def Opcode.matchWord (op : Opcode) : Word := op.byte.setWidth 32 <<< 24

theorem Opcode.fieldOpc_matchMask (op : Opcode) : fieldOpc op.matchMask = BitVec.allOnes 8 := by cases op <;> rfl

theorem Opcode.matchMask_low (op : Opcode) : op.matchMask &&& 0x00FFFFFF = op.reservedMask := by cases op <;> rfl

theorem Opcode.fieldOpc_matchWord (op : Opcode) : fieldOpc op.matchWord = op.byte := by cases op <;> rfl

theorem Opcode.matchWord_low (op : Opcode) : op.matchWord &&& 0x00FFFFFF = 0 := by cases op <;> rfl

/-- `w AND mask == match`, compared on OPC and on the bits below it. -/
theorem Opcode.and_matchMask_eq_iff {w : Word} {op : Opcode} :
    w &&& op.matchMask = op.matchWord ↔ fieldOpc w = op.byte ∧ w &&& op.reservedMask = 0 := by
  rw [word_ext_iff, fieldOpc_and, op.fieldOpc_matchMask, BitVec.and_allOnes, BitVec.and_assoc, op.matchMask_low,
    op.fieldOpc_matchWord, op.matchWord_low]

theorem exists_decode_opcode_iff_match (op : Opcode) (w : Word) :
    (∃ i, decode w = .ok i ∧ i.opcode = op) ↔ w &&& op.matchMask = op.matchWord :=
  exists_decode_opcode_iff.trans Opcode.and_matchMask_eq_iff.symm

/-- Settles O4: each printed pair is the `matchMask` and `matchWord` of its opcode. -/
theorem matchAndMaskSelectTheCommand : Obligations.MatchAndMaskSelectTheCommand := fun w =>
  have h := fun op => exists_decode_opcode_iff_match op w
  ⟨h .nop, h .gfExp, h .gfLog, h .gfMul, h .gfAdd, h .rsGen, h .rsDiv, h .rsSyn⟩

end Sys2Proof

namespace Sys2Proof.Machine

/-! ### A CMD write -/

theorem ofAddr_cmd (p : Params) : Target.ofAddr p 0 = .cmd := rfl

/-- A write of CMD issues the word (20_memory.md R43). -/
theorem step_of_cmd_write {s : State} {w : Word} {rest : List HostMove} (h : s.Presents (.write 0 w) rest) :
    step s = .next (issue w (s.afterMove rest)) := by
  rw [step_of_presents h]
  simp only [performAccess, hostWrite, ofAddr_cmd]

theorem issue_of_decode_error {s : State} {w : Word} {e : DecodeError} (hb : s.busy = false) (hd : decode w = .error e) :
    issue w s = s.rejected (DecodeError.errCode e).code := by
  simp only [issue, hb, hd, Bool.false_eq_true, if_false]
  rfl

/-- A word that is no command is rejected with the decoder's error, which is the step's only effect. -/
theorem step_of_decode_error {s : State} {w : Word} {rest : List HostMove} {e : DecodeError}
    (h : s.Presents (.write 0 w) rest) (hb : s.busy = false) (hd : decode w = .error e) :
    step s = .next ((s.afterMove rest).rejected (DecodeError.errCode e).code) := by
  rw [step_of_cmd_write h, issue_of_decode_error (s := s.afterMove rest) hb hd]

/-- Settles O28: an opcode in R68's ranges is in no row of the opcode map. -/
theorem reservedOpcodeIsRejected : Obligations.ReservedOpcodeIsRejected := by
  intro s w rest h hb hopc
  rw [← fieldOpc_toNat] at hopc
  exact step_of_decode_error h hb (decode_of_reservedOpcode (Opcode.ofByte_reserved hopc))

/-- A non-zero bit in a field reserved for the word's opcode is rejected with code 2 (R69). -/
theorem step_of_reservedField {s : State} {w : Word} {rest : List HostMove} (op : Opcode)
    (h : s.Presents (.write 0 w) rest) (hb : s.busy = false) (hopc : w >>> 24 = op.byte.setWidth 32)
    (hres : w &&& op.reservedMask ≠ 0) : step s = .next ((s.afterMove rest).rejected 2) := by
  have hd : decode w = .error .reservedField := by rw [decode_of_opcode (fieldOpc_of_ushiftRight hopc), if_pos hres]
  exact step_of_decode_error h hb hd

/-- Settles O29: each clause is one row of R66 that reserves a field. -/
theorem reservedFieldIsRejected : Obligations.ReservedFieldIsRejected := by
  intro s w rest h hb hw
  rcases hw with ⟨hopc, hres⟩ | ⟨hopc, hres⟩ | ⟨hopc, hres⟩ | ⟨hopc, hres⟩ | ⟨hopc, hres⟩ | ⟨hopc, hres⟩ | ⟨hopc, hres⟩
  · exact step_of_reservedField .nop h hb hopc hres
  · exact step_of_reservedField .gfExp h hb hopc hres
  · exact step_of_reservedField .gfLog h hb hopc hres
  · exact step_of_reservedField .gfMul h hb hopc hres
  · exact step_of_reservedField .gfAdd h hb hopc hres
  · exact step_of_reservedField .rsGen h hb hopc hres
  · exact step_of_reservedField .rsDiv h hb hopc hres

end Sys2Proof.Machine
end

section
/-! The command words of 30_encoding.md read back: a word of either format as a number, its fields, and the decoder's answer to the
encoding of a command. -/

namespace Sys2Proof

theorem toNat_append_eq_add {m n : Nat} (x : BitVec m) (y : BitVec n) :
    (x ++ y).toNat = x.toNat * 2 ^ n + y.toNat := by
  rw [BitVec.toNat_append, ← Nat.shiftLeft_add_eq_or_of_lt y.isLt, Nat.shiftLeft_eq]

/-! ### Format S (R63) -/

theorem formatS_toNat (opc a b : Byte) :
    (formatS opc a b).toNat = opc.toNat * 2 ^ 24 + a.toNat * 2 ^ 16 + b.toNat * 2 ^ 8 := by
  have hzero : (0 : Byte).toNat = 0 := rfl
  rw [formatS, toNat_append_eq_add, toNat_append_eq_add, toNat_append_eq_add, hzero]
  omega

/-- A number whose base-256 digits are OPC, A, B and 0 is the format S word of those fields. -/
theorem ofNat_eq_formatS {n : Nat} {opc a b : Byte}
    (h : n = opc.toNat * 2 ^ 24 + a.toNat * 2 ^ 16 + b.toNat * 2 ^ 8) : BitVec.ofNat 32 n = formatS opc a b := by
  rw [h, ← formatS_toNat, BitVec.ofNat_toNat, BitVec.setWidth_eq]

@[simp] theorem fieldA_formatS (opc a b : Byte) : fieldA (formatS opc a b) = a := by
  apply BitVec.eq_of_toNat_eq
  rw [fieldA, BitVec.extractLsb'_toNat, formatS_toNat, Nat.shiftRight_eq_div_pow]
  omega

@[simp] theorem fieldB_formatS (opc a b : Byte) : fieldB (formatS opc a b) = b := by
  apply BitVec.eq_of_toNat_eq
  rw [fieldB, BitVec.extractLsb'_toNat, formatS_toNat, Nat.shiftRight_eq_div_pow]
  omega

/-! ### Format P (R64) -/

theorem formatP_toNat (opc n : Byte) (k : BitVec 16) :
    (formatP opc n k).toNat = opc.toNat * 2 ^ 24 + n.toNat * 2 ^ 16 + k.toNat := by
  rw [formatP, toNat_append_eq_add, toNat_append_eq_add]
  omega

@[simp] theorem fieldN_formatP (opc n : Byte) (k : BitVec 16) : fieldN (formatP opc n k) = n := by
  apply BitVec.eq_of_toNat_eq
  rw [fieldN, BitVec.extractLsb'_toNat, formatP_toNat, Nat.shiftRight_eq_div_pow]
  omega

@[simp] theorem fieldK_formatP (opc n : Byte) (k : BitVec 16) : fieldK (formatP opc n k) = k := by
  apply BitVec.eq_of_toNat_eq
  rw [fieldK, BitVec.extractLsb'_toNat, formatP_toNat, Nat.shiftRight_eq_div_pow]
  omega

/-! ### Decoding an encoded command (R67) -/

theorem encodeFields : ∀ i : Instr, Laws.EncodeFields.Statement i
  | .nop => Laws.EncodeFields.nop
  | .gfExp a => Laws.EncodeFields.gfExp a
  | .gfLog a => Laws.EncodeFields.gfLog a
  | .gfMul a b => Laws.EncodeFields.gfMul a b
  | .gfAdd a b => Laws.EncodeFields.gfAdd a b
  | .rsGen n => Laws.EncodeFields.rsGen n
  | .rsDiv k => Laws.EncodeFields.rsDiv k
  | .rsSyn n l => Laws.EncodeFields.rsSyn n l

/-- Each operand is read from the field it was written to. -/
theorem operands_encode (i : Instr) : i.opcode.operands (encode i) = i := by
  cases i <;> simp [Instr.opcode, Opcode.operands, encode]

theorem decode_encode (i : Instr) : decode (encode i) = .ok i := by
  obtain ⟨hopc, hres⟩ := encodeFields i
  rw [decode_of_opcode hopc, if_neg (not_not.mpr hres), operands_encode]

end Sys2Proof
end

section
/-! The GF commands (40_gf_arith.md): the ROMs as the powers of α that `gfPow` computes, the multiplier, and what each command
writes. -/

namespace Sys2Proof.Machine

/-! ### The ROMs hold the powers of α (10_state.md R35–R39) -/

theorem gfDoubleTimes_eq_iterate (n v : Nat) : gfDoubleTimes n v = gfDouble^[n] v := by
  induction n generalizing v with
  | zero => rfl
  | succ n ih => exact ih (gfDouble v)

/-- The powers that R35 gives "directly" are the first seven doublings, so every power is so many doublings of 1. -/
theorem gfPowReduced_eq_iterate (e : Nat) : gfPowReduced e = gfDouble^[e] 1 := by
  unfold gfPowReduced
  split_ifs with he
  · interval_cases e <;> rfl
  · have hseven : 2 ^ 7 = gfDouble^[7] 1 := rfl
    rw [gfDoubleTimes_eq_iterate, hseven, ← Function.iterate_add_apply, Nat.sub_add_cancel (by omega)]

/-- Each entry of the printed table is the doubling of the one before it. -/
theorem expTable_eq_iterate : expTable = List.iterate gfDouble 1 255 := by decide +kernel

theorem expRom_eq_gfPow (e : GfExponent) : expRom e = gfPow e.val := by
  have hentry : expTable[e.val]? = some (gfDouble^[e.val] 1) := by
    rw [expTable_eq_iterate, List.getElem?_iterate _ _ _ _ e.isLt]
  rw [expRom, gfPow, if_neg (by omega), gfPowReduced_eq_iterate, List.getD_eq_getElem?_getD, hentry, Option.getD_some]

theorem gfPow_255 : gfPow 255 = 1 := by decide +kernel

/-- R36: the source reduces an exponent from 256 on; 255 itself takes α once round to 1. -/
theorem gfPow_mod (e : Nat) : gfPow (e % 255) = gfPow e := by
  rcases lt_trichotomy e 255 with he | rfl | he
  · rw [Nat.mod_eq_of_lt he]
  · exact gfPow_255.symm
  · simp only [gfPow, if_pos (show e ≥ 256 by omega), if_neg (show ¬ e % 255 ≥ 256 by omega)]

theorem alphaPow_eq_gfPow (i : Nat) : alphaPow i = gfPow i := (expRom_eq_gfPow _).trans (gfPow_mod i)

/-- R37: EXP_ROM holds no 0. -/
theorem expRom_ne_zero : ∀ e : GfExponent, expRom e ≠ 0 := by decide +kernel

/-- The one evaluation of the printed LOG_ROM: each entry is an exponent of its value. -/
theorem expRom_logTable :
    ∀ v : GfValue, v ≠ 0 → expRom (Fin.ofNat 255 (logTable.getD (v.toNat - 1) 0)) = v := by decide +kernel

/-- LOG_ROM sends a non-zero value to its exponent (R38, R39). -/
theorem exists_logRom {v : GfValue} (hv : v ≠ 0) : ∃ e, logRom v = some e ∧ expRom e = v :=
  ⟨_, if_neg hv, expRom_logTable v hv⟩

theorem expRom_zero : expRom 0 = 1 := rfl

theorem logRom_one : logRom 1 = some 0 := rfl

/-! ### The multiplier (40_gf_arith.md R78) -/

theorem gfMul_zero_left (b : GfValue) : gfMul 0 b = 0 := rfl

theorem gfMul_zero_right (a : GfValue) : gfMul a 0 = 0 := by
  unfold gfMul
  cases logRom a <;> rfl

theorem gfMul_of_logRom {a b : GfValue} {i j : GfExponent} (ha : logRom a = some i) (hb : logRom b = some j) :
    gfMul a b = expRom (i + j) := by
  simp only [gfMul, ha, hb]

/-! ### What the GF commands write -/

theorem zeroOf_eq_decide (v : Byte) : zeroOf v = decide (v = 0) := rfl

theorem exponentByte_eq_zero_iff (e : GfExponent) : exponentByte e = 0 ↔ e = 0 := by
  rw [exponentByte, ← BitVec.toNat_inj, BitVec.toNat_ofNat, Nat.mod_eq_of_lt (by omega), Fin.ext_iff]
  rfl

/-- The exponent of a value is 0 exactly for 1 = α^0. -/
theorem zeroOf_exponentByte {a : GfValue} {e : GfExponent} (ha : logRom a = some e) (he : expRom e = a) :
    zeroOf (exponentByte e) = decide (a = 1) := by
  rw [zeroOf_eq_decide, decide_eq_decide]
  constructor
  · intro hbyte
    rw [← he, (exponentByte_eq_zero_iff e).mp hbyte, expRom_zero]
  · rintro rfl
    rw [logRom_one, Option.some.injEq] at ha
    exact (exponentByte_eq_zero_iff e).mpr ha.symm

/-- `writeResult` under another expression for the ZERO it writes. -/
theorem writeResult_of_zeroOf {v : Byte} {z : Bool} (hz : zeroOf v = z) (s : State) :
    writeResult v s = { s with result := v, zero := z } := by
  subst hz
  rfl

theorem exec_gfExp (a : Byte) (s : State) : exec (.gfExp a) s = .next (writeResult (gfPow a.toNat) s) := by
  rw [← alphaPow_eq_gfPow]
  rfl

theorem exec_gfLog_of_logRom {a : GfValue} {e : GfExponent} (ha : logRom a = some e) (s : State) :
    exec (.gfLog a) s = .next (writeResult (exponentByte e) s) := by
  simp only [exec, execGfLog, ha]

theorem gfLogCheck_of_logRom {a : GfValue} {e : GfExponent} (ha : logRom a = some e) : gfLogCheck a = none := by
  simp only [gfLogCheck, ha]

theorem exec_gfMul (a b : GfValue) (s : State) : exec (.gfMul a b) s = .next (writeResult (gfMul a b) s) := rfl

theorem exec_gfAdd (a b : GfValue) (s : State) : exec (.gfAdd a b) s = .next (writeResult (gfAdd a b) s) := rfl

/-! ### The obligations -/

/-- Settles O10: RESULT is a power of α, and EXP_ROM holds no 0. -/
theorem gfExpGivesPowerOfAlpha : Obligations.GfExpGivesPowerOfAlpha := by
  intro a s
  have hword : BitVec.ofNat 32 (0x01000000 + a.toNat * 2 ^ 16) = encode (.gfExp a) := ofNat_eq_formatS (by simp)
  have hzero : zeroOf (gfPow a.toNat) = false := by
    rw [← alphaPow_eq_gfPow, zeroOf_eq_decide, decide_eq_false_iff_not]
    exact expRom_ne_zero _
  rw [hword, exec_gfExp, writeResult_of_zeroOf hzero]
  exact ⟨decode_encode _, rfl, rfl⟩

/-- Settles O11: a non-zero value has its exponent in LOG_ROM, and the value 0 has none, which is the rejection. -/
theorem gfLogGivesExponentOrRejectsZero : Obligations.GfLogGivesExponentOrRejectsZero := by
  intro a s
  have hword : BitVec.ofNat 32 (0x02000000 + a.toNat * 2 ^ 16) = encode (.gfLog a) := ofNat_eq_formatS (by simp)
  rw [hword]
  refine ⟨decode_encode _, fun ha => ?_, ?_⟩
  · obtain ⟨e, hlog, hexp⟩ := exists_logRom ha
    refine ⟨gfLogCheck_of_logRom hlog, e.val, e.isLt, (expRom_eq_gfPow e).symm.trans hexp, ?_⟩
    rw [exec_gfLog_of_logRom hlog, writeResult_of_zeroOf (zeroOf_exponentByte hlog hexp)]
    rfl
  · rintro rfl
    exact ⟨rfl, rfl⟩

/-- Settles O12: a zero operand has no exponent; otherwise the exponents add in `Fin 255`. -/
theorem gfMulAddsExponents : Obligations.GfMulAddsExponents := by
  intro a b s
  have hword : BitVec.ofNat 32 (0x03000000 + a.toNat * 2 ^ 16 + b.toNat * 2 ^ 8) = encode (.gfMul a b) :=
    ofNat_eq_formatS (by simp)
  rw [hword, exec_gfMul]
  refine ⟨decode_encode _, rfl, fun hzero => ?_, fun ha hb => ?_⟩
  · have hprod : gfMul a b = 0 := by
      rcases hzero with rfl | rfl
      · exact gfMul_zero_left b
      · exact gfMul_zero_right a
    rw [hprod]
    rfl
  · obtain ⟨i, hlogA, hexpA⟩ := exists_logRom ha
    obtain ⟨j, hlogB, hexpB⟩ := exists_logRom hb
    refine ⟨i.val, j.val, i.isLt, j.isLt, (expRom_eq_gfPow i).symm.trans hexpA, (expRom_eq_gfPow j).symm.trans hexpB, ?_⟩
    have hzero : zeroOf (expRom (i + j)) = false := decide_eq_false (expRom_ne_zero _)
    rw [gfMul_of_logRom hlogA hlogB, writeResult_of_zeroOf hzero, expRom_eq_gfPow, Fin.val_add]

/-- Settles O14: a XOR b is 0 exactly for a = b. -/
theorem gfAddIsExclusiveOr : Obligations.GfAddIsExclusiveOr := by
  intro a b s
  have hword : BitVec.ofNat 32 (0x04000000 + a.toNat * 2 ^ 16 + b.toNat * 2 ^ 8) = encode (.gfAdd a b) :=
    ofNat_eq_formatS (by simp)
  have hzero : zeroOf (gfAdd a b) = decide (a = b) := by
    rw [zeroOf_eq_decide, gfAdd, decide_eq_decide]
    exact BitVec.xor_eq_zero_iff
  rw [hword, exec_gfAdd, writeResult_of_zeroOf hzero]
  exact ⟨decode_encode _, rfl, rfl⟩

/-- Settles O15: NOP is the identity, and each accepted GF command is a `writeResult` of a value computed from its operands. -/
theorem gfResultsDependOnOperandsAlone : Obligations.GfResultsDependOnOperandsAlone := by
  refine ⟨fun s => rfl, fun i s₀ hopc hcheck => ?_⟩
  suffices hwrite : ∃ v, ∀ s, exec i s = .next (writeResult v s) by
    obtain ⟨v, hv⟩ := hwrite
    exact ⟨v, zeroOf v, hv⟩
  cases i with
  | gfExp a => exact ⟨_, exec_gfExp a⟩
  | gfLog a =>
    obtain ⟨e, hlog, -⟩ := exists_logRom (v := a) (by rintro rfl; cases hcheck)
    exact ⟨_, exec_gfLog_of_logRom hlog⟩
  | gfMul a b => exact ⟨_, exec_gfMul a b⟩
  | gfAdd a b => exact ⟨_, exec_gfAdd a b⟩
  | nop | rsGen n | rsDiv k | rsSyn n l => simp [Instr.opcode] at hopc

end Sys2Proof.Machine
end

section
/-! The commands of 41_reed_solomon.md: what a range store leaves in each entry of a buffer, and what RS.GEN, RS.DIV
and RS.SYN write. -/

namespace Sys2Proof

/-- A number whose digits are OPC, N and K is the format P word of those fields (R64). -/
theorem ofNat_eq_formatP {m : Nat} {opc n : Byte} {k : BitVec 16}
    (h : m = opc.toNat * 2 ^ 24 + n.toNat * 2 ^ 16 + k.toNat) : BitVec.ofNat 32 m = formatP opc n k := by
  rw [h, ← formatP_toNat, BitVec.ofNat_toNat, BitVec.setWidth_eq]

end Sys2Proof

namespace Sys2Proof.Machine

/-! ### The entries of a buffer after a range store -/

theorem Memory.getElem?_eq_entry_storeRange (m : Memory) (r : Nat) (b : Buffer) (i : Nat) {vs : List Byte} {j : Nat}
    (hj : j < vs.length) : vs[j]? = some ((m.storeRange i vs).entry r b (i + j)) := by
  have hin : i ≤ i + j ∧ i + j < i + vs.length := by omega
  rw [Memory.entry, Memory.lookup_storeRange, if_pos hin, Nat.add_sub_cancel_left, List.getElem?_eq_getElem hj,
    Option.getD_some]

theorem Memory.entry_storeRange_of_outside (m : Memory) (r : Nat) (b : Buffer) {i j : Nat} {vs : List Byte}
    (hj : j < i ∨ i + vs.length ≤ j) : (m.storeRange i vs).entry r b j = m.entry r b j := by
  have hout : ¬(i ≤ j ∧ j < i + vs.length) := by omega
  rw [Memory.entry, Memory.lookup_storeRange, if_neg hout, Memory.entry]

/-- ZERO of RS.DIV and RS.SYN (R22), said of the entries `f` that the values were written to. -/
theorem allZero_iff_of_getElem? {vs : List Byte} {n : Nat} {f : Nat → Byte} (hlen : vs.length = n)
    (hf : ∀ i, i < n → vs[i]? = some (f i)) : allZero vs = true ↔ ∀ i, i < n → f i = 0 := by
  have hvs : vs = (List.range n).map f :=
    List.ext_getElem (by simp [hlen]) fun i hi _ => by
      simpa [List.getElem?_eq_getElem hi] using hf i (hlen ▸ hi)
  simp [hvs, allZero, zeroOf]

/-! ### The three ways an RS command writes -/

section
variable {vs : List Byte} {n i : Nat} (hlen : vs.length = n) (s : State)
include hlen

theorem getElem?_eq_genEntry_writeGenerator (d : Byte) (hi : i < n) :
    vs[i]? = some ((writeGenerator d vs s).genEntry i) := by
  have hstored := s.gen.getElem?_eq_entry_storeRange s.resets .gen 0 (hi.trans_eq hlen.symm)
  rwa [Nat.zero_add] at hstored

theorem genEntry_writeGenerator_of_le (d : Byte) (hi : n ≤ i) : (writeGenerator d vs s).genEntry i = s.genEntry i :=
  Memory.entry_storeRange_of_outside _ _ _ (by omega)

theorem getElem?_eq_synEntry_writeSyndromes (hi : i < n) : vs[i]? = some ((writeSyndromes vs s).synEntry i) := by
  have hstored := s.syn.getElem?_eq_entry_storeRange s.resets .syn 0 (hi.trans_eq hlen.symm)
  rwa [Nat.zero_add] at hstored

theorem synEntry_writeSyndromes_of_le (hi : n ≤ i) : (writeSyndromes vs s).synEntry i = s.synEntry i :=
  Memory.entry_storeRange_of_outside _ _ _ (by omega)

theorem writeSyndromes_zero_iff :
    (writeSyndromes vs s).zero = true ↔ ∀ i, i < n → (writeSyndromes vs s).synEntry i = 0 :=
  allZero_iff_of_getElem? hlen fun _ => getElem?_eq_synEntry_writeSyndromes hlen s

theorem getElem?_eq_msgEntry_writeEc (k : Nat) (hi : i < n) : vs[i]? = some ((writeEc k vs s).msgEntry (k + i)) :=
  Memory.getElem?_eq_entry_storeRange _ _ _ _ (hi.trans_eq hlen.symm)

theorem msgEntry_writeEc_of_outside {k : Nat} (hi : i < k ∨ k + n ≤ i) : (writeEc k vs s).msgEntry i = s.msgEntry i :=
  Memory.entry_storeRange_of_outside _ _ _ (by omega)

theorem writeEc_zero_iff (k : Nat) :
    (writeEc k vs s).zero = true ↔ ∀ i, i < n → (writeEc k vs s).msgEntry (k + i) = 0 :=
  allZero_iff_of_getElem? hlen fun _ => getElem?_eq_msgEntry_writeEc hlen s k

end

/-! ### An RS command is its operand check and its way to write -/

theorem exec_rsGen (n : Byte) (s : State) : exec (.rsGen n) s =
    .next (perform (operandCheck (.rsGen n) s) (writeGenerator n (genPoly n.toNat)) s) := rfl

theorem exec_rsDiv (k : BitVec 16) (s : State) : exec (.rsDiv k) s =
    .next (perform (operandCheck (.rsDiv k) s) (writeEc k.toNat (rsRem (msgPrefix s k.toNat) (generator s))) s) := rfl

theorem exec_rsSyn (n : Byte) (l : BitVec 16) (s : State) : exec (.rsSyn n l) s =
    .next (perform (operandCheck (.rsSyn n l) s) (writeSyndromes (syndromes (msgPrefix s l.toNat) n.toNat)) s) := rfl

/-! ### The obligations -/

/-- Settles O17: gen_poly(n) has n + 1 coefficients, so the range store at GEN[0] ends with GEN[n]. -/
theorem rsGenLoadsGenerator : Obligations.RsGenLoadsGenerator := by
  intro n s
  have hword : BitVec.ofNat 32 (0x10000000 + n.toNat * 2 ^ 16) = encode (.rsGen n) := ofNat_eq_formatP (by simp)
  rw [hword, exec_rsGen]
  refine ⟨decode_encode _, fun hn hmax => ?_, fun hbad => ?_⟩
  · have hcheck : operandCheck (.rsGen n) s = none := if_neg (not_or.mpr ⟨hn, not_lt.mpr hmax⟩)
    have hlen := genPoly_length n.toNat
    rw [hcheck]
    exact ⟨rfl, writeGenerator n (genPoly n.toNat) s, rfl, rfl,
      fun j hj => getElem?_eq_genEntry_writeGenerator hlen s n (Nat.lt_succ_of_le hj),
      fun j hj => genEntry_writeGenerator_of_le hlen s n hj⟩
  · have hcheck : operandCheck (.rsGen n) s = some .badLength := if_pos hbad
    rw [hcheck]
    exact ⟨rfl, rfl⟩

/-- Settles O21: the remainder has GEN_N codewords, so the range store at MSG[k] ends before MSG[k + GEN_N]. -/
theorem rsDivWritesEcCodewords : Obligations.RsDivWritesEcCodewords := by
  intro k s
  have hword : BitVec.ofNat 32 (0x11000000 + k.toNat) = encode (.rsDiv k) := ofNat_eq_formatP (by simp)
  rw [hword, exec_rsDiv]
  refine ⟨decode_encode _, fun hvalid hfits => ?_, fun hinvalid => ?_, fun hvalid hlong => ?_⟩
  · have hcheck : operandCheck (.rsDiv k) s = none := by simp [operandCheck, rsDivCheck, hvalid, hfits]
    have hlen : (rsRem (msgPrefix s k.toNat) (generator s)).length = s.genN.toNat := by
      rw [rsRem_length, generator_length, Nat.add_sub_cancel]
    rw [hcheck]
    exact ⟨rfl, writeEc k.toNat (rsRem (msgPrefix s k.toNat) (generator s)) s, _, rfl, rfl, rfl, hlen,
      fun i hi => getElem?_eq_msgEntry_writeEc hlen s k.toNat hi,
      fun i hi => msgEntry_writeEc_of_outside hlen s hi, writeEc_zero_iff hlen s k.toNat⟩
  · have hcheck : operandCheck (.rsDiv k) s = some .noGenerator := if_pos hinvalid
    rw [hcheck]
    exact ⟨rfl, rfl⟩
  · have hcheck : operandCheck (.rsDiv k) s = some .badLength := by simp [operandCheck, rsDivCheck, hvalid, hlong]
    rw [hcheck]
    exact ⟨rfl, rfl⟩

/-- Settles O24: there are n syndromes, so the range store at SYN[0] ends before SYN[n]. -/
theorem rsSynWritesSyndromes : Obligations.RsSynWritesSyndromes := by
  intro n l s
  have hword : BitVec.ofNat 32 (0x12000000 + n.toNat * 2 ^ 16 + l.toNat) = encode (.rsSyn n l) :=
    ofNat_eq_formatP (by simp)
  rw [hword, exec_rsSyn]
  refine ⟨decode_encode _, fun hn hmax hfits => ?_, fun hbad => ?_⟩
  · have hcheck : operandCheck (.rsSyn n l) s = none :=
      if_neg (not_or.mpr ⟨hn, not_or.mpr ⟨not_lt.mpr hmax, not_lt.mpr hfits⟩⟩)
    have hlen := syndromes_length (msgPrefix s l.toNat) n.toNat
    rw [hcheck]
    exact ⟨rfl, writeSyndromes (syndromes (msgPrefix s l.toNat) n.toNat) s, rfl, rfl,
      fun i hi => getElem?_eq_synEntry_writeSyndromes hlen s hi,
      fun i hi => synEntry_writeSyndromes_of_le hlen s hi, writeSyndromes_zero_iff hlen s⟩
  · have hcheck : operandCheck (.rsSyn n l) s = some .badLength := if_pos hbad
    rw [hcheck]
    exact ⟨rfl, rfl⟩

end Sys2Proof.Machine
end

section
/-! A rejection at issue (60_exceptions.md): the busy rejections of a CMD and of an MSG write, and the operand check of a decoded
command, which answers a rejection or an acceptance (70_reset_and_hazards.md R124, R125). -/

namespace Sys2Proof.Machine

/-! ### A CMD write while BUSY = 1, and one that decodes -/

/-- Taking a move from the host's list changes nothing that an operand check reads. -/
@[simp] theorem operandCheck_afterMove (i : Instr) (s : State) (rest : List HostMove) :
    operandCheck i (s.afterMove rest) = operandCheck i s := by
  cases i <;> rfl

section
variable {s : State} {w : Word} {rest : List HostMove} (h : s.Presents (.write 0 w) rest)
include h

/-- With BUSY = 1 the word is rejected with code 6, whatever it is (R106). -/
theorem step_of_busy_cmd_write (hb : s.busy = true) : step s = .next ((s.afterMove rest).rejected 6) := by
  rw [step_of_cmd_write h, issue, State.afterMove_busy, if_pos hb]
  rfl

variable {i : Instr} (hb : s.busy = false) (hd : decode w = .ok i)
include hb hd

/-- With BUSY = 0 a command is its operand check with the acceptance behind it (R124). -/
theorem step_of_command_write :
    step s = .next (perform (operandCheck i s) (accept w) (s.afterMove rest)) := by
  rw [step_of_cmd_write h]
  simp [issue, hb, hd]

theorem step_of_failed_check {c : ErrCode} (hc : operandCheck i s = some c) :
    step s = .next ((s.afterMove rest).rejected c.code) := by
  rw [step_of_command_write h hb hd, hc]
  rfl

/-- An acceptance writes PENDING and BUSY and, of the model's own, the fields that hold the latency (R125). -/
theorem step_of_passed_check (hc : operandCheck i s = none) :
    ∃ (lat draws : Nat) (plan : List Nat), step s = .next
      { s.afterMove rest with pending := w, busy := true, latLeft := lat, draws := draws, plan := plan } := by
  rw [step_of_command_write h hb hd, hc]
  exact ⟨_, _, _, rfl⟩

end

/-- GF.LOG rejects the value 0 alone: every other value has an exponent. -/
theorem gfLogCheck_eq_ite (a : GfValue) : gfLogCheck a = if a = 0 then some .logZero else none := by
  split_ifs with ha
  · subst ha
    rfl
  · obtain ⟨e, hlog, -⟩ := exists_logRom ha
    exact gfLogCheck_of_logRom hlog

/-! ### An MSG write while BUSY = 1 -/

/-- The map names an entry of MSG at every aligned byte address of R49's window. -/
theorem exists_ofAddr_msg {p : Params} (hp : p.Legal) {a : BitVec 13} (hlo : 0x4000 ≤ 4 * a.toNat)
    (hhi : 4 * a.toNat < 0x4000 + 4 * p.msgDepth) : ∃ i, Target.ofAddr p a = .msg i := by
  have haddr : 4 * a.toNat = 0x4000 + 4 * (a.toNat - 0x1000) := by omega
  exact ⟨_, by rw [Target.ofAddr, haddr, ofByteAddr_msg hp (by omega)]⟩

theorem step_of_busy_msg_write {s : State} {a : BitVec 13} {v : Word} {rest : List HostMove} {i : Nat}
    (h : s.Presents (.write a v) rest) (ht : Target.ofAddr s.params a = .msg i) (hb : s.busy = true) :
    step s = .next ((s.afterMove rest).rejected 7) := by
  rw [step_of_presents h]
  simp only [performAccess, hostWrite, State.afterMove_params, State.afterMove_busy, ht, hb, if_true]
  rfl

/-! ### The obligations -/

/-- Settles O30: BUSY, then the decoder, then the operand check, whose cases are the `if`s of each command. -/
theorem commandIsCheckedThenAccepted : Obligations.CommandIsCheckedThenAccepted := by
  intro s w rest h u accepted
  refine ⟨step_of_busy_cmd_write h, fun hb => ?_⟩
  rcases hd : decode w with e | i
  · have hrejected := step_of_decode_error h hb hd
    cases e <;> exact hrejected
  have rejects : ∀ {c : ErrCode}, operandCheck i s = some c → step s = .next (u.rejected c.code) :=
    step_of_failed_check h hb hd
  have accepts : operandCheck i s = none → accepted := step_of_passed_check h hb hd
  cases i with
  | nop | gfExp | gfMul | gfAdd => exact accepts rfl
  | gfLog a =>
    dsimp only
    split_ifs with ha
    · exact rejects ((gfLogCheck_eq_ite a).trans (if_pos ha))
    · exact accepts ((gfLogCheck_eq_ite a).trans (if_neg ha))
  | rsGen n =>
    dsimp only
    split_ifs with hbad
    · exact rejects (if_pos hbad)
    · exact accepts (if_neg hbad)
  | rsDiv k =>
    dsimp only
    split_ifs with hinvalid hlong
    · exact rejects (if_pos hinvalid)
    · exact rejects ((if_neg hinvalid).trans (if_pos hlong))
    · exact accepts ((if_neg hinvalid).trans (if_neg hlong))
  | rsSyn n l =>
    dsimp only
    split_ifs with hbad
    · exact rejects (if_pos hbad)
    · exact accepts (if_neg hbad)

/-- Settles O31: the address names an entry of MSG, and BUSY = 1 turns its write into a rejection. -/
theorem busyMsgWriteIsRejected : Obligations.BusyMsgWriteIsRejected := by
  intro s a v rest h hb hp hlo hhi
  obtain ⟨i, ht⟩ := exists_ofAddr_msg hp hlo hhi
  exact step_of_busy_msg_write h ht hb

end Sys2Proof.Machine
end

section
/-! The field laws (40_gf_arith.md R80, R82): multiplication adds exponents, multiplication by α is a shift with its reduction and
so distributes over XOR, and the carry-less multiplier agrees with the one that adds exponents. -/

namespace Sys2Proof.Machine

/-! ### Addition -/

theorem gfAdd_comm (a b : GfValue) : gfAdd a b = gfAdd b a := BitVec.xor_comm a b

theorem gfAdd_assoc (a b c : GfValue) : gfAdd (gfAdd a b) c = gfAdd a (gfAdd b c) := BitVec.xor_assoc a b c

@[simp] theorem gfAdd_zero (a : GfValue) : gfAdd a 0 = a := BitVec.xor_zero

@[simp] theorem zero_gfAdd (a : GfValue) : gfAdd 0 a = a := BitVec.zero_xor

@[simp] theorem gfAdd_self (a : GfValue) : gfAdd a a = 0 := BitVec.xor_self

theorem gfAdd_eq_zero_iff {a b : GfValue} : gfAdd a b = 0 ↔ a = b := BitVec.xor_eq_zero_iff

theorem gfAdd_gfAdd_cancel (a b : GfValue) : gfAdd a (gfAdd a b) = b := by
  rw [← gfAdd_assoc, gfAdd_self, zero_gfAdd]

theorem gfAdd_gfAdd_gfAdd_comm (a b c d : GfValue) :
    gfAdd (gfAdd a b) (gfAdd c d) = gfAdd (gfAdd a c) (gfAdd b d) := by
  simp only [gfAdd]
  ac_rfl

/-! ### Multiplication adds exponents -/

theorem card_nonzero : Fintype.card {v : GfValue // v ≠ 0} = 255 := by
  have hcard : Fintype.card GfValue = 256 :=
    (Fintype.card_congr BitVec.equivFin.toEquiv).trans (Fintype.card_fin (2 ^ 8))
  rw [Fintype.card_subtype_compl, hcard, Fintype.card_subtype_eq]

/-- LOG_ROM finds an exponent for each of the 255 non-zero values, so no two of the 255 exponents give one value (R37). -/
theorem expRom_injective : Function.Injective expRom := by
  have hsurj : Function.Surjective fun e => (⟨expRom e, expRom_ne_zero e⟩ : {v : GfValue // v ≠ 0}) := by
    rintro ⟨v, hv⟩
    obtain ⟨e, -, he⟩ := exists_logRom hv
    exact ⟨e, Subtype.ext he⟩
  have hbij := (Fintype.bijective_iff_surjective_and_card _).mpr
    ⟨hsurj, (Fintype.card_fin 255).trans card_nonzero.symm⟩
  exact fun e f h => hbij.injective (Subtype.ext h)

theorem logRom_expRom (e : GfExponent) : logRom (expRom e) = some e := by
  obtain ⟨f, hlog, hexp⟩ := exists_logRom (expRom_ne_zero e)
  rw [hlog, expRom_injective hexp]

theorem gfMul_expRom (i j : GfExponent) : gfMul (expRom i) (expRom j) = expRom (i + j) :=
  gfMul_of_logRom (logRom_expRom i) (logRom_expRom j)

/-- Every value is 0 or a power of α (R37). -/
theorem eq_zero_or_eq_expRom (v : GfValue) : v = 0 ∨ ∃ e, v = expRom e := by
  refine or_iff_not_imp_left.mpr fun hv => ?_
  obtain ⟨e, -, he⟩ := exists_logRom hv
  exact ⟨e, he.symm⟩

theorem gfMul_comm (a b : GfValue) : gfMul a b = gfMul b a := by
  obtain rfl | ⟨i, rfl⟩ := eq_zero_or_eq_expRom a
  · rw [gfMul_zero_left, gfMul_zero_right]
  obtain rfl | ⟨j, rfl⟩ := eq_zero_or_eq_expRom b
  · rw [gfMul_zero_left, gfMul_zero_right]
  rw [gfMul_expRom, gfMul_expRom, add_comm]

theorem gfMul_assoc (a b c : GfValue) : gfMul (gfMul a b) c = gfMul a (gfMul b c) := by
  obtain rfl | ⟨i, rfl⟩ := eq_zero_or_eq_expRom a
  · simp only [gfMul_zero_left]
  obtain rfl | ⟨j, rfl⟩ := eq_zero_or_eq_expRom b
  · simp only [gfMul_zero_left, gfMul_zero_right]
  obtain rfl | ⟨k, rfl⟩ := eq_zero_or_eq_expRom c
  · simp only [gfMul_zero_right]
  simp only [gfMul_expRom, add_assoc]

@[simp] theorem gfMul_one (a : GfValue) : gfMul a 1 = a := by
  obtain rfl | ⟨i, rfl⟩ := eq_zero_or_eq_expRom a
  · rw [gfMul_zero_left]
  rw [← expRom_zero, gfMul_expRom, add_zero]

theorem gfMul_right_comm (a b c : GfValue) : gfMul (gfMul a b) c = gfMul (gfMul a c) b := by
  rw [gfMul_assoc, gfMul_comm b, gfMul_assoc]

theorem gfMul_eq_zero_iff {a b : GfValue} : gfMul a b = 0 ↔ a = 0 ∨ b = 0 := by
  refine ⟨fun h => ?_, ?_⟩
  · obtain rfl | ⟨i, rfl⟩ := eq_zero_or_eq_expRom a
    · exact .inl rfl
    obtain rfl | ⟨j, rfl⟩ := eq_zero_or_eq_expRom b
    · exact .inr rfl
    rw [gfMul_expRom] at h
    exact absurd h (expRom_ne_zero _)
  · rintro (rfl | rfl)
    · exact gfMul_zero_left b
    · exact gfMul_zero_right a

/-! ### Powers of α by natural exponents -/

theorem alphaPow_ne_zero (i : Nat) : alphaPow i ≠ 0 := expRom_ne_zero _

@[simp] theorem alphaPow_zero : alphaPow 0 = 1 := rfl

theorem expRom_eq_alphaPow (e : GfExponent) : expRom e = alphaPow e.val :=
  congrArg expRom (Fin.ext (Nat.mod_eq_of_lt e.isLt).symm)

theorem gfMul_alphaPow (i j : Nat) : gfMul (alphaPow i) (alphaPow j) = alphaPow (i + j) := by
  rw [alphaPow, alphaPow, alphaPow, gfMul_expRom]
  congr 1
  exact Fin.ext (Nat.add_mod i j 255).symm

/-- The powers of α up to α^254 are distinct. -/
theorem alphaPow_injOn {i j : Nat} (hi : i < 255) (hj : j < 255) (h : alphaPow i = alphaPow j) : i = j := by
  have hfin := Fin.val_eq_of_eq (expRom_injective h)
  rwa [Fin.val_ofNat, Fin.val_ofNat, Nat.mod_eq_of_lt hi, Nat.mod_eq_of_lt hj] at hfin

/-- R82: the exponent 255 - e, reduced, inverts the exponent e. -/
theorem gfMul_inverse (e : GfExponent) : gfMul (expRom e) (expRom (Fin.ofNat 255 ((255 - e.val) % 255))) = 1 := by
  have hsum : e + Fin.ofNat 255 ((255 - e.val) % 255) = 0 := by
    apply Fin.ext
    rw [Fin.val_add, Fin.val_ofNat, Nat.mod_mod, Nat.add_mod_mod, Nat.add_sub_cancel' e.isLt.le]
    rfl
  rw [gfMul_expRom, hsum, expRom_zero]

/-! ### Multiplication by α is the doubling of R35 -/

/-- The doubling of R35 on bytes. -/
def byteDouble (v : GfValue) : GfValue := BitVec.ofNat 8 (gfDouble v.toNat)

theorem gfDouble_lt : ∀ v < 256, gfDouble v < 256 := by decide +kernel

theorem gfDouble_iterate_lt (n : Nat) : gfDouble^[n] 1 < 256 := by
  induction n with
  | zero => decide
  | succ n ih =>
    rw [Function.iterate_succ_apply']
    exact gfDouble_lt _ ih

theorem alphaPow_eq_iterate {n : Nat} (hn : n < 256) : alphaPow n = BitVec.ofNat 8 (gfDouble^[n] 1) := by
  rw [alphaPow_eq_gfPow, gfPow, if_neg (by omega), gfPowReduced_eq_iterate]

theorem gfMul_two (v : GfValue) : gfMul 2 v = byteDouble v := by
  obtain rfl | ⟨e, rfl⟩ := eq_zero_or_eq_expRom v
  · rw [gfMul_zero_right]
    rfl
  have htwo : (2 : GfValue) = alphaPow 1 := rfl
  rw [expRom_eq_alphaPow, htwo, gfMul_alphaPow, Nat.add_comm, alphaPow_eq_iterate (by omega), byteDouble,
    alphaPow_eq_iterate (by omega), BitVec.toNat_ofNat, Nat.mod_eq_of_lt (gfDouble_iterate_lt _),
    Function.iterate_succ_apply']

/-! ### Distributivity -/

/-- The doubling is a shift with a conditional reduction. -/
theorem byteDouble_eq_shift : ∀ v : GfValue, byteDouble v = v <<< 1 ^^^ (if v.getLsbD 7 then 0x1D else 0) := by
  decide +kernel

theorem byteDouble_gfAdd (a b : GfValue) : byteDouble (gfAdd a b) = gfAdd (byteDouble a) (byteDouble b) := by
  simp only [byteDouble_eq_shift, gfAdd, BitVec.getLsbD_xor, BitVec.shiftLeft_xor_distrib]
  have hmask : (if (a.getLsbD 7 ^^ b.getLsbD 7) = true then (0x1D : Byte) else 0) =
      (if a.getLsbD 7 = true then 0x1D else 0) ^^^ (if b.getLsbD 7 = true then 0x1D else 0) := by
    cases a.getLsbD 7 <;> cases b.getLsbD 7 <;> rfl
  rw [hmask]
  ac_rfl

/-- α^(n+1) · v is one more doubling. -/
theorem gfMul_alphaPow_succ (n : Nat) (v : GfValue) : gfMul (alphaPow (n + 1)) v = byteDouble (gfMul (alphaPow n) v) := by
  have htwo : (2 : GfValue) = alphaPow 1 := rfl
  rw [← gfMul_two, htwo, ← gfMul_assoc, gfMul_alphaPow, Nat.add_comm]

theorem gfMul_alphaPow_gfAdd (n : Nat) (b c : GfValue) :
    gfMul (alphaPow n) (gfAdd b c) = gfAdd (gfMul (alphaPow n) b) (gfMul (alphaPow n) c) := by
  induction n with
  | zero => simp only [alphaPow_zero, gfMul_comm 1, gfMul_one]
  | succ n ih => rw [gfMul_alphaPow_succ, ih, byteDouble_gfAdd, ← gfMul_alphaPow_succ, ← gfMul_alphaPow_succ]

theorem gfMul_gfAdd (a b c : GfValue) : gfMul a (gfAdd b c) = gfAdd (gfMul a b) (gfMul a c) := by
  obtain rfl | ⟨i, rfl⟩ := eq_zero_or_eq_expRom a
  · simp only [gfMul_zero_left, gfAdd_zero]
  rw [expRom_eq_alphaPow, gfMul_alphaPow_gfAdd]

theorem gfAdd_gfMul (a b c : GfValue) : gfMul (gfAdd a b) c = gfAdd (gfMul a c) (gfMul b c) := by
  rw [gfMul_comm, gfMul_gfAdd, gfMul_comm c, gfMul_comm c]

/-! ### The carry-less multiplier (40_gf_arith.md R80)

Both multipliers are additive in each operand, so they agree if they agree at the operands' bits. -/

/-- One step of the reduction loop. -/
def reduceStep (r t : Nat) : Nat := if r.testBit (14 - t) then r ^^^ (0x11D <<< (6 - t)) else r

theorem reduceStep_xor (r s t : Nat) : reduceStep (r ^^^ s) t = reduceStep r t ^^^ reduceStep s t := by
  unfold reduceStep
  rw [Nat.testBit_xor]
  cases r.testBit (14 - t) <;> cases s.testBit (14 - t) <;>
    simp [Nat.xor_assoc, Nat.xor_comm s]

theorem foldl_reduceStep_xor (l : List Nat) (r s : Nat) :
    l.foldl reduceStep (r ^^^ s) = l.foldl reduceStep r ^^^ l.foldl reduceStep s := by
  induction l generalizing r s with
  | nil => rfl
  | cons t l ih => rw [List.foldl_cons, reduceStep_xor, ih, List.foldl_cons, List.foldl_cons]

/-- The reduced product as a byte. -/
def reducedByte (r : Nat) : GfValue := BitVec.ofNat 8 (reduceModulus r)

theorem reducedByte_xor (r s : Nat) : reducedByte (r ^^^ s) = gfAdd (reducedByte r) (reducedByte s) := by
  have hxor : reduceModulus (r ^^^ s) = reduceModulus r ^^^ reduceModulus s := foldl_reduceStep_xor _ r s
  rw [reducedByte, hxor, BitVec.ofNat_xor]
  rfl

/-- The sum of the values `f i` at the bits `i` that are set in `b`. -/
def bitSum (f : Nat → GfValue) (b : GfValue) : GfValue :=
  (List.range 8).foldl (fun r i => if b.toNat.testBit i then gfAdd r (f i) else r) 0

theorem bitSum_congr {f g : Nat → GfValue} (h : ∀ i ∈ List.range 8, f i = g i) (b : GfValue) : bitSum f b = bitSum g b :=
  List.foldl_ext _ _ _ fun r i hi => by rw [h i hi]

theorem bitSum_twoPow : ∀ b : GfValue, bitSum (BitVec.twoPow 8) b = b := by decide +kernel

/-- An additive function is determined by its values at the eight bits. -/
theorem eq_bitSum_of_additive {f : GfValue → GfValue} (hzero : f 0 = 0)
    (hadd : ∀ a b, f (gfAdd a b) = gfAdd (f a) (f b)) (b : GfValue) : f b = bitSum (fun i => f (BitVec.twoPow 8 i)) b := by
  have hpush : bitSum (fun i => f (BitVec.twoPow 8 i)) b = f (bitSum (BitVec.twoPow 8) b) := by
    rw [bitSum, ← hzero]
    refine List.foldl_hom f fun r i => ?_
    rw [apply_ite f, hadd]
  rw [hpush, bitSum_twoPow]

theorem clmulMod_eq_bitSum (a b : GfValue) : clmulMod a b = bitSum (fun i => reducedByte (a.toNat <<< i)) b := by
  refine (List.foldl_hom reducedByte fun r i => ?_).symm
  rw [apply_ite reducedByte, reducedByte_xor]

/-- The two multipliers at two bits. -/
theorem reducedByte_twoPow_shiftLeft : ∀ i ∈ List.range 8, ∀ j ∈ List.range 8,
    reducedByte ((BitVec.twoPow 8 j).toNat <<< i) = gfMul (BitVec.twoPow 8 j) (BitVec.twoPow 8 i) := by decide +kernel

/-- Shifting by a bit's position and reducing is the product by that bit. -/
theorem reducedByte_shiftLeft {i : Nat} (hi : i ∈ List.range 8) (a : GfValue) :
    reducedByte (a.toNat <<< i) = gfMul a (BitVec.twoPow 8 i) := by
  have hshift : ∀ a b : GfValue, reducedByte ((gfAdd a b).toNat <<< i) =
      gfAdd (reducedByte (a.toNat <<< i)) (reducedByte (b.toNat <<< i)) := fun a b => by
    rw [gfAdd, BitVec.toNat_xor, Nat.shiftLeft_xor_distrib, reducedByte_xor]
  have hzero : reducedByte ((0 : GfValue).toNat <<< i) = 0 := congrArg reducedByte (Nat.zero_shiftLeft i)
  rw [eq_bitSum_of_additive (f := fun a => reducedByte (a.toNat <<< i)) hzero hshift,
    eq_bitSum_of_additive (f := (gfMul · (BitVec.twoPow 8 i))) (gfMul_zero_left _) fun a b => gfAdd_gfMul a b _]
  exact bitSum_congr (reducedByte_twoPow_shiftLeft i hi) a

theorem gfMul_eq_clmulMod (a b : GfValue) : gfMul a b = clmulMod a b := by
  rw [clmulMod_eq_bitSum, eq_bitSum_of_additive (f := gfMul a) (gfMul_zero_right a) (gfMul_gfAdd a)]
  exact bitSum_congr (fun i hi => (reducedByte_shiftLeft hi a).symm) b

end Sys2Proof.Machine
end

section
/-! The obligations about command words and about the field (30_encoding.md §1–§4; 10_state.md §8; 40_gf_arith.md §5, §7). -/

namespace Sys2Proof

/-! ### The word of the decoded command -/

/-- A mask of the low bits is the remainder by a power of two. -/
theorem mod_eq_zero_of_and_eq_zero {w : Word} {m : Nat} (hm : m ≤ 32)
    (h : w &&& BitVec.ofNat 32 (2 ^ m - 1) = 0) : w.toNat % 2 ^ m = 0 := by
  have hlt : 2 ^ m - 1 < 2 ^ 32 := (Nat.sub_lt (Nat.two_pow_pos m) one_pos).trans_le (Nat.pow_le_pow_right two_pos hm)
  have hand := congrArg BitVec.toNat h
  rwa [BitVec.toNat_and, BitVec.toNat_ofNat, Nat.mod_eq_of_lt hlt, Nat.and_two_pow_sub_one_eq_mod] at hand

/-- The fields of a word as digits of its number (R63, R64). -/
theorem field_toNat (w : Word) :
    (fieldOpc w).toNat = w.toNat / 2 ^ 24 ∧ (fieldA w).toNat = w.toNat / 2 ^ 16 % 2 ^ 8 ∧
      (fieldB w).toNat = w.toNat / 2 ^ 8 % 2 ^ 8 ∧ (fieldK w).toNat = w.toNat % 2 ^ 16 := by
  simp only [fieldOpc, fieldA, fieldB, fieldK, BitVec.extractLsb'_toNat, Nat.shiftRight_eq_div_pow]
  exact ⟨Nat.mod_eq_of_lt (by omega), trivial, trivial, by omega⟩

/-- A word whose low byte is 0 is the format S word of its fields. -/
theorem formatS_fields {w : Word} (h : w.toNat % 2 ^ 8 = 0) : formatS (fieldOpc w) (fieldA w) (fieldB w) = w := by
  obtain ⟨hopc, ha, hb, -⟩ := field_toNat w
  apply BitVec.eq_of_toNat_eq
  rw [formatS_toNat, hopc, ha, hb]
  omega

theorem formatP_fields (w : Word) : formatP (fieldOpc w) (fieldN w) (fieldK w) = w := by
  obtain ⟨hopc, hn, -, hk⟩ := field_toNat w
  apply BitVec.eq_of_toNat_eq
  rw [formatP_toNat, hopc, fieldN, hk]
  rw [fieldA] at hn
  omega

/-- With bits [15:0] of a word 0, the fields B and K and the low byte are 0. -/
theorem fields_of_low_half {w : Word} (h : w.toNat % 2 ^ 16 = 0) :
    fieldB w = 0 ∧ w.toNat % 2 ^ 8 = 0 ∧ fieldK w = 0 := by
  obtain ⟨-, -, hb, hk⟩ := field_toNat w
  refine ⟨BitVec.eq_of_toNat_eq ?_, by omega, BitVec.eq_of_toNat_eq ?_⟩
  · rw [hb]
    change _ = 0
    omega
  · rw [hk]
    exact h

theorem fieldN_eq_zero {w : Word} (h : w &&& 0x00FF0000 = 0) : fieldN w = 0 := by
  have hfield : fieldN (w &&& 0x00FF0000) = fieldN w := by
    rw [fieldN, BitVec.extractLsb'_and]
    exact BitVec.and_allOnes
  rw [← hfield, h]
  rfl

/-- With its reserved fields 0 a word is the encoding of the command read from its fields. -/
theorem encode_operands {w : Word} {op : Opcode} (hopc : fieldOpc w = op.byte) (hres : w &&& op.reservedMask = 0) :
    encode (op.operands w) = w := by
  have hs := formatS_fields (w := w)
  have hp := formatP_fields w
  rw [hopc] at hs hp
  cases op with
  | nop =>
    have hzero : w = 0 := word_ext_iff.mpr ⟨hopc, hres⟩
    exact hzero.symm
  | gfExp | gfLog =>
    obtain ⟨hb, hlow, -⟩ := fields_of_low_half (mod_eq_zero_of_and_eq_zero (m := 16) (by decide) hres)
    rw [hb] at hs
    exact hs hlow
  | gfMul | gfAdd => exact hs (mod_eq_zero_of_and_eq_zero (m := 8) (by decide) hres)
  | rsGen =>
    obtain ⟨-, -, hk⟩ := fields_of_low_half (mod_eq_zero_of_and_eq_zero (m := 16) (by decide) hres)
    rwa [hk] at hp
  | rsDiv => rwa [fieldN_eq_zero hres] at hp
  | rsSyn => exact hp

/-- A word that decodes has an assigned opcode, zeros in its reserved fields, and the operands of its fields (R67). -/
theorem decode_eq_ok {w : Word} {i : Instr} (h : decode w = .ok i) :
    ∃ op : Opcode, fieldOpc w = op.byte ∧ w &&& op.reservedMask = 0 ∧ i = op.operands w := by
  obtain ⟨hopc, hres⟩ := exists_decode_opcode_iff.mp ⟨i, h, rfl⟩
  refine ⟨i.opcode, hopc, hres, ?_⟩
  rw [decode_of_opcode hopc, if_neg (not_not.mpr hres)] at h
  exact (Except.ok.inj h).symm

theorem encode_of_decode {w : Word} {i : Instr} (h : decode w = .ok i) : encode i = w := by
  obtain ⟨op, hopc, hres, rfl⟩ := decode_eq_ok h
  exact encode_operands hopc hres

/-- Settles O2: OPC and the reserved fields of the encoding are those of the command's opcode, and each operand is read from the field
it was written to. -/
theorem decodeOfEncodeIsTheCommand : Obligations.DecodeOfEncodeIsTheCommand := decode_encode

/-- Settles O3: the fields of a word that decodes hold all its bits but reserved ones, which are 0. -/
theorem encodeOfDecodeIsTheWord : Obligations.EncodeOfDecodeIsTheWord := fun _ _ => encode_of_decode

/-- Settles O1: the decoder evaluated at each of the words. -/
theorem sampleWordsDecode : Obligations.SampleWordsDecode := by
  unfold Obligations.SampleWordsDecode
  decide

end Sys2Proof

namespace Sys2Proof.Machine

/-- Settles O9: NOP's encoding is the word 0, and every bit below OPC is reserved for it. -/
theorem nopWritesNothing : Obligations.NopWritesNothing := by
  refine ⟨fun w => ⟨fun h => (encode_of_decode h).symm, ?_⟩, fun w hw hopc => ?_, fun s => ⟨rfl, rfl⟩⟩
  · rintro rfl
    exact decode_encode .nop
  · have hfield : fieldOpc w = Opcode.nop.byte := fieldOpc_of_ushiftRight hopc
    rw [decode_of_opcode hfield, if_pos]
    exact fun hres => hw (word_ext_iff.mpr ⟨hfield, hres⟩)

/-- Settles O5: EXP_ROM has LOG_ROM as its inverse on the non-zero values. -/
theorem expRomIsGfPowBijection : Obligations.ExpRomIsGfPowBijection := by
  refine ⟨expRom_eq_gfPow, fun e f h => expRom_injective h, fun v => ⟨fun hv => ?_, ?_⟩, rfl, rfl, rfl, rfl⟩
  · obtain ⟨e, -, he⟩ := exists_logRom hv
    exact ⟨e, he⟩
  · rintro ⟨e, rfl⟩
    exact expRom_ne_zero e

/-- Settles O6: LOG_ROM undoes EXP_ROM, and every non-zero value has an exponent. -/
theorem logRomInvertsExpRom : Obligations.LogRomInvertsExpRom := by
  refine ⟨logRom_expRom, fun v hv => ?_, rfl⟩
  obtain ⟨e, hlog, rfl⟩ := exists_logRom hv
  exact ⟨e, hlog, rfl, fun f hf => expRom_injective hf⟩

/-- Settles O7: an exponent from 256 on is reduced by the source itself, and α^255 is evaluated. -/
theorem gfPowHasPeriod255 : Obligations.GfPowHasPeriod255 := ⟨gfPow_255, fun e => (gfPow_mod e).symm⟩

/-- Settles O8: the laws of multiplication are those of adding exponents, and it distributes because multiplying by α does. -/
theorem gfArithmeticIsAField : Obligations.GfArithmeticIsAField := by
  intro a b c
  refine ⟨gfAdd_comm a b, gfAdd_assoc a b c, gfMul_comm a b, gfMul_assoc a b c, gfMul_gfAdd a b c, gfAdd_zero a,
    gfMul_one a, gfAdd_self a, fun e he => ?_, fun ha => ?_⟩
  · obtain rfl | ⟨i, rfl⟩ := eq_zero_or_eq_expRom a
    · cases he
    obtain rfl : i = e := Option.some.inj ((logRom_expRom i).symm.trans he)
    exact gfMul_inverse i
  · obtain ⟨e, hlog, -⟩ := exists_logRom ha
    exact ⟨e, hlog⟩

/-- Settles O13: both multipliers are additive in the second operand and agree at its bits. -/
theorem gfMulIsCarrylessProduct : Obligations.GfMulIsCarrylessProduct := gfMul_eq_clmulMod

theorem exponentByte_toNat (e : GfExponent) : (exponentByte e).toNat = e.val := by
  rw [exponentByte, BitVec.toNat_ofNat, Nat.mod_eq_of_lt (by omega)]

/-- Settles O16: GF.EXP of the host's exponent gives the inverse of b. -/
theorem hostDividesByLogExpMul : Obligations.HostDividesByLogExpMul := by
  intro a b s hb
  obtain ⟨e, hlog, rfl⟩ := exists_logRom hb
  refine ⟨_, _, _, exec_gfLog_of_logRom hlog s, exec_gfExp _ _, exec_gfMul _ _ _, ?_⟩
  have hexponent : (BitVec.ofNat 8 ((255 - e.val) % 255)).toNat = (255 - e.val) % 255 := by
    rw [BitVec.toNat_ofNat]
    omega
  rw [writeResult_result, writeResult_result, writeResult_result, exponentByte_toNat, hexponent, ← alphaPow_eq_gfPow,
    alphaPow, gfMul_assoc, gfMul_comm _ (expRom e), gfMul_inverse, gfMul_one]

end Sys2Proof.Machine
end

section
/-! What a step can do to the unit (10_state.md R17; 20_memory.md R57): the frames of accesses and of meanings, the host's turn as a
reset edge, a write access or nothing, and the registers and buffers that only the engine writes. -/

namespace Sys2Proof.Machine

/-! ### What leaves the unit alone -/

@[simp] theorem hostRead_unit (a : BitVec 13) (s : State) : (hostRead a s).unit = s.unit := by
  obtain ⟨v, d, h⟩ := hostRead_cases a s
  rw [h]
  rfl

@[simp] theorem hostRead_latLeft (a : BitVec 13) (s : State) : (hostRead a s).latLeft = s.latLeft := by
  obtain ⟨v, d, h⟩ := hostRead_cases a s
  rw [h]

@[simp] theorem poll_unit (s : State) : (poll s).unit = s.unit := by
  rcases poll_cases s with h | h <;> rw [h]
  · exact hostRead_unit ..
  · exact hostRead_unit statusAddr s

@[simp] theorem poll_latLeft (s : State) : (poll s).latLeft = s.latLeft := by
  rcases poll_cases s with h | h <;> rw [h]
  · exact hostRead_latLeft ..
  · exact hostRead_latLeft statusAddr s

@[simp] theorem accessInReset_unit (x : Option Access) (s : State) : (accessInReset x s).unit = s.unit := by
  rcases x with _ | ⟨_ | _⟩ <;> rfl

/-! ### The host's list of moves -/

@[simp] theorem hostRead_host (a : BitVec 13) (s : State) : (hostRead a s).host = s.host := by
  obtain ⟨v, d, h⟩ := hostRead_cases a s
  rw [h]

@[simp] theorem issue_host (w : Word) (s : State) : (issue w s).host = s.host := by
  rcases issue_cases w s with ⟨c, h⟩ | ⟨-, -, h⟩ <;> simp [h]

@[simp] theorem hostWrite_host (a : BitVec 13) (v : Word) (s : State) : (hostWrite a v s).host = s.host := by
  rcases hostWrite_cases a v s with ⟨-, h⟩ | ⟨-, -, h⟩ | ⟨i, -, -, h⟩ | ⟨i, -, -, h⟩ | h <;> simp [h]

@[simp] theorem performAccess_host (x : Access) (s : State) : (performAccess x s).host = s.host := by
  cases x <;> simp [performAccess]

@[simp] theorem accessInReset_host (x : Option Access) (s : State) : (accessInReset x s).host = s.host := by
  rcases x with _ | ⟨_ | _⟩ <;> rfl

@[simp] theorem portCycle_host (rst : Bool) (x : Option Access) (s : State) : (portCycle rst x s).host = s.host := by
  cases rst <;> cases x <;> simp [portCycle]

/-- A poll keeps the moves to come, with `wait` in front of them again while BUSY reads 1. -/
theorem poll_host (s : State) : (poll s).host = s.host ∨ (poll s).host = .wait :: s.host := by
  rcases poll_cases s with h | h <;> simp [h]

/-! ### The host's turn -/

theorem performAccess_write_or (x : Access) (s : State) :
    (∃ a v, x = .write a v ∧ performAccess x s = hostWrite a v s) ∨
    ((performAccess x s).unit = s.unit ∧ (performAccess x s).latLeft = s.latLeft) := by
  cases x with
  | read a => exact .inr ⟨hostRead_unit a s, hostRead_latLeft a s⟩
  | write a v => exact .inl ⟨a, v, rfl, rfl⟩

/-- A host move is a reset edge, a write access, or changes nothing of the unit and of the latency. -/
theorem hostMove_effect {m : HostMove} {s t : State} (h : hostMove m s = .next t) :
    (∃ x, m = .cycle true x ∧ t = accessInReset x (applyReset s)) ∨
    (∃ a v, m.access? = some (.write a v) ∧ t = hostWrite a v s) ∨ (t.unit = s.unit ∧ t.latLeft = s.latLeft) := by
  rcases hostMove_next h with ⟨rst, x, rfl, rfl⟩ | ⟨r, x, rfl, hr, rfl⟩ | ⟨rfl, rfl⟩
  · cases rst with
    | true => exact .inl ⟨x, rfl, rfl⟩
    | false =>
      cases x with
      | none => exact .inr (.inr ⟨rfl, rfl⟩)
      | some x =>
        refine .inr ((performAccess_write_or x s).imp_left ?_)
        rintro ⟨a, v, rfl, hw⟩
        exact ⟨a, v, rfl, hw⟩
  · refine .inr ((performAccess_write_or x s).imp_left ?_)
    rintro ⟨a, v, rfl, hw⟩
    exact ⟨a, v, by simp [HostMove.access?, hr], hw⟩
  · exact .inr (.inr ⟨poll_unit s, poll_latLeft s⟩)

/-- The host's turn is a reset edge, a write access, or changes nothing of the unit; one move of the latency passes. -/
theorem hostTurn_effect {s t : State} (h : hostTurn s = .next t) :
    (∃ x rest, s.host = .cycle true x :: rest ∧ t = accessInReset x (applyReset (s.afterMove rest))) ∨
    (∃ m rest a v, s.host = m :: rest ∧ m.access? = some (.write a v) ∧ t = hostWrite a v (s.afterMove rest)) ∨
    (t.unit = s.unit ∧ t.latLeft = s.latLeft - 1) := by
  rcases hostTurn_next h with ⟨-, rfl⟩ | ⟨m, rest, hhost, hm⟩
  · exact .inr (.inr ⟨rfl, rfl⟩)
  · rcases hostMove_effect hm with ⟨x, rfl, ht⟩ | ⟨a, v, ha, ht⟩ | hsame
    · exact .inl ⟨x, rest, hhost, ht⟩
    · exact .inr (.inl ⟨m, rest, a, v, hhost, ha, ht⟩)
    · exact .inr (.inr hsame)

theorem stepResets_of_reset_cycle {s : State} {x : Option Access} {rest : List HostMove} (hturn : engineTurn s = false)
    (hhost : s.host = .cycle true x :: rest) : s.stepResets = true := by
  simp [State.stepResets, hturn, hhost]

/-- A step that is no reset edge is a completion, a write access of the host, or changes nothing of the unit. -/
theorem step_effect {s t : State} (h : step s = .next t) (hr : s.stepResets = false) :
    (engineTurn s = true ∧ ∃ i, decode s.pending = .ok i ∧ exec i { s with busy := false } = .next t) ∨
    (engineTurn s = false ∧ ∃ m rest a v, s.host = m :: rest ∧ m.access? = some (.write a v) ∧
      t = hostWrite a v (s.afterMove rest)) ∨
    (engineTurn s = false ∧ t.unit = s.unit ∧ t.latLeft = s.latLeft - 1) := by
  rcases step_cases s with ⟨hturn, hs⟩ | ⟨hturn, hs⟩ <;> rw [hs] at h
  · exact .inl ⟨hturn, completion_next h⟩
  · rcases hostTurn_effect h with ⟨x, rest, hhost, -⟩ | hwrite | hsame
    · simp [stepResets_of_reset_cycle hturn hhost] at hr
    · exact .inr (.inl ⟨hturn, hwrite⟩)
    · exact .inr (.inr ⟨hturn, hsame⟩)

/-! ### What only the engine writes -/

/-- The registers and buffers that no host access writes (10_state.md §2, §4, §5, §7). -/
def State.engineWritten (s : State) : Byte × Bool × Bool × Byte × Memory × Memory :=
  (s.result, s.zero, s.genValid, s.genN, s.gen, s.syn)

theorem engineWritten_of_unit {s t : State} (h : t.unit = s.unit) : t.engineWritten = s.engineWritten := by
  change t.unit.engineWritten = s.unit.engineWritten
  rw [h]

theorem issue_engineWritten (w : Word) (s : State) : (issue w s).engineWritten = s.engineWritten := by
  rcases issue_cases w s with ⟨c, h⟩ | ⟨-, -, h⟩ <;> rw [h] <;> rfl

theorem hostWrite_engineWritten (a : BitVec 13) (v : Word) (s : State) :
    (hostWrite a v s).engineWritten = s.engineWritten := by
  rcases hostWrite_cases a v s with ⟨-, h⟩ | ⟨-, -, h⟩ | ⟨i, -, -, h⟩ | ⟨i, -, -, h⟩ | h <;> rw [h]
  case inl => exact issue_engineWritten v s
  all_goals rfl

/-- A step that changes what only the engine writes is a completion. -/
theorem completion_of_engineWritten_ne {s t : State} (h : step s = .next t) (hr : s.stepResets = false)
    (hne : t.engineWritten ≠ s.engineWritten) :
    engineTurn s = true ∧ ∃ i, decode s.pending = .ok i ∧ exec i { s with busy := false } = .next t := by
  rcases step_effect h hr with hcompletion | ⟨-, m, rest, a, v, -, -, rfl⟩ | ⟨-, hunit, -⟩
  · exact hcompletion
  · exact absurd (hostWrite_engineWritten a v _) hne
  · exact absurd (engineWritten_of_unit hunit) hne

/-! ### What the commands write -/

/-- What neither a rejection nor the effect changes, a checked command leaves alone. -/
theorem perform_frame {α : Type} (p : State → α) {c : Option ErrCode} {f : State → State} {s : State}
    (hreject : ∀ e, p (reject e s) = p s) (heffect : p (f s) = p s) : p (perform c f s) = p s := by
  cases c with
  | none => exact heffect
  | some e => exact hreject e

section
variable {i : Instr} {s t : State} (h : exec i s = .next t)
include h

/-- `exec_cases` for the state that is answered. -/
theorem exec_effect :
    (i = .nop ∧ t = s) ∨ (∃ c, operandCheck i s = some c ∧ t = reject c s) ∨
    (∃ v, operandCheck i s = none ∧ t = writeResult v s) ∨
    (∃ n, i = .rsGen n ∧ operandCheck i s = none ∧ t = writeGenerator n (genPoly n.toNat) s) ∨
    (∃ k, i = .rsDiv k ∧ operandCheck i s = none ∧
      t = writeEc k.toNat (rsRem (msgPrefix s k.toNat) (generator s)) s) ∨
    (∃ n l, i = .rsSyn n l ∧ operandCheck i s = none ∧
      t = writeSyndromes (syndromes (msgPrefix s l.toNat) n.toNat) s) := by
  rcases exec_cases i s with ⟨he, hi⟩ | ⟨c, he, hc⟩ | ⟨v, he, hc⟩ | ⟨n, hi, he, hc⟩ | ⟨k, hi, he, hc⟩ | ⟨n, l, hi, he, hc⟩ <;>
    cases he.symm.trans h
  · exact .inl ⟨hi, rfl⟩
  · exact .inr (.inl ⟨c, hc, rfl⟩)
  · exact .inr (.inr (.inl ⟨v, hc, rfl⟩))
  · exact .inr (.inr (.inr (.inl ⟨n, hi, hc, rfl⟩)))
  · exact .inr (.inr (.inr (.inr (.inl ⟨k, hi, hc, rfl⟩))))
  · exact .inr (.inr (.inr (.inr (.inr ⟨n, l, hi, hc, rfl⟩))))

/-- RESULT is written by the GF commands alone. -/
theorem exec_result :
    (i.opcode = .gfExp ∨ i.opcode = .gfLog ∨ i.opcode = .gfMul ∨ i.opcode = .gfAdd) ∨ t.result = s.result := by
  cases i with
  | gfExp | gfLog | gfMul | gfAdd => exact .inl (by simp [Instr.opcode])
  | nop => cases h; exact .inr rfl
  | rsGen | rsDiv | rsSyn => cases h; exact .inr (perform_frame State.result (fun _ => rfl) rfl)

/-- ZERO is left alone by NOP and RS.GEN. -/
theorem exec_zero : (i.opcode ≠ .nop ∧ i.opcode ≠ .rsGen) ∨ t.zero = s.zero := by
  cases i with
  | nop => cases h; exact .inr rfl
  | rsGen => cases h; exact .inr (perform_frame State.zero (fun _ => rfl) rfl)
  | gfExp | gfLog | gfMul | gfAdd | rsDiv | rsSyn => exact .inl (by simp [Instr.opcode])

/-- GEN, GEN_N and GEN_VALID are written together, by RS.GEN. -/
theorem exec_generator : (∃ n, i = .rsGen n ∧ t = writeGenerator n (genPoly n.toNat) s) ∨
    (t.gen = s.gen ∧ t.genN = s.genN ∧ t.genValid = s.genValid) := by
  rcases exec_effect h with ⟨-, rfl⟩ | ⟨c, -, rfl⟩ | ⟨v, -, rfl⟩ | ⟨n, hi, -, rfl⟩ | ⟨k, -, -, rfl⟩ | ⟨n, l, -, -, rfl⟩
  case inr.inr.inr.inl => exact .inl ⟨n, hi, rfl⟩
  all_goals exact .inr ⟨rfl, rfl, rfl⟩

theorem exec_syn : (∃ n l, i = .rsSyn n l) ∨ t.syn = s.syn := by
  rcases exec_effect h with ⟨-, rfl⟩ | ⟨c, -, rfl⟩ | ⟨v, -, rfl⟩ | ⟨n, -, -, rfl⟩ | ⟨k, -, -, rfl⟩ | ⟨n, l, hi, -, rfl⟩
  case inr.inr.inr.inr.inr => exact .inl ⟨n, l, hi⟩
  all_goals exact .inr rfl

theorem exec_msg : (∃ k, i = .rsDiv k) ∨ t.msg = s.msg := by
  rcases exec_effect h with ⟨-, rfl⟩ | ⟨c, -, rfl⟩ | ⟨v, -, rfl⟩ | ⟨n, -, -, rfl⟩ | ⟨k, hi, -, rfl⟩ | ⟨n, l, -, -, rfl⟩
  case inr.inr.inr.inr.inl => exact .inl ⟨k, hi⟩
  all_goals exact .inr rfl

/-- A meaning sets ERR with a rejection, and never clears it. -/
theorem exec_err : t.err = true ∨ t.err = s.err := by
  rcases exec_effect h with ⟨-, rfl⟩ | ⟨c, -, rfl⟩ | ⟨v, -, rfl⟩ | ⟨n, -, -, rfl⟩ | ⟨k, -, -, rfl⟩ | ⟨n, l, -, -, rfl⟩
  case inr.inl => exact .inl rfl
  all_goals exact .inr rfl

/-- A meaning leaves BUSY, the host's moves and the latency to the lifecycle. -/
theorem exec_lifecycle : t.busy = s.busy ∧ t.host = s.host ∧ t.latLeft = s.latLeft := by
  rcases exec_effect h with ⟨-, rfl⟩ | ⟨c, -, rfl⟩ | ⟨v, -, rfl⟩ | ⟨n, -, -, rfl⟩ | ⟨k, -, -, rfl⟩ | ⟨n, l, -, -, rfl⟩ <;>
    exact ⟨rfl, rfl, rfl⟩

/-- A command that passes its check leaves ERR and ERRCODE alone. -/
theorem exec_err_of_check (hc : operandCheck i s = none) : t.err = s.err ∧ t.errcode = s.errcode := by
  rcases exec_effect h with ⟨-, rfl⟩ | ⟨c, hcheck, rfl⟩ | ⟨v, -, rfl⟩ | ⟨n, -, -, rfl⟩ | ⟨k, -, -, rfl⟩ | ⟨n, l, -, -, rfl⟩
  case inr.inl => simp [hc] at hcheck
  all_goals exact ⟨rfl, rfl⟩

end

/-! ### Addresses of the targets with writers -/

theorem eq_statusAddr_of_ofAddr {p : Params} {a : BitVec 13} (h : Target.ofAddr p a = .status) : a = 1 :=
  ofAddr_injective (h.trans (ofAddr_status p).symm) (by simp [h])

/-- Only the addresses of R49's window name an entry of MSG, each the one of its index. -/
theorem ofAddr_eq_msg {p : Params} {a : BitVec 13} {i : Nat} (h : Target.ofAddr p a = .msg i) :
    0x4000 ≤ 4 * a.toNat ∧ 4 * a.toNat < 0x4000 + 4 * p.msgDepth ∧ i < p.msgDepth := by
  unfold Target.ofAddr Target.ofByteAddr at h
  split_ifs at h with _ _ _ _ _ _ _ hrange
  obtain ⟨hlo, hhi⟩ := hrange
  rw [Target.msg.injEq] at h
  omega

/-- The write accesses that change MSG. -/
theorem hostWrite_msg (a : BitVec 13) (v : Word) (s : State) :
    (s.busy = false ∧ ∃ i, Target.ofAddr s.params a = .msg i) ∨ (hostWrite a v s).msg = s.msg := by
  rcases hostWrite_cases a v s with ⟨-, h⟩ | ⟨-, -, h⟩ | ⟨i, -, -, h⟩ | ⟨i, ht, hb, -⟩ | h
  case inr.inr.inr.inl => exact .inl ⟨hb, i, ht⟩
  case inl =>
    rw [h]
    rcases issue_cases v s with ⟨c, h⟩ | ⟨-, -, h⟩ <;> rw [h] <;> exact .inr rfl
  all_goals rw [h]; exact .inr rfl

/-- The write accesses that clear ERR. -/
theorem hostWrite_err (a : BitVec 13) (v : Word) (s : State) :
    (Target.ofAddr s.params a = .status ∧ v.getLsbD 1 = true) ∨ (hostWrite a v s).err = true ∨
      (hostWrite a v s).err = s.err := by
  rcases hostWrite_cases a v s with ⟨-, h⟩ | ⟨ht, hv, -⟩ | ⟨i, -, -, h⟩ | ⟨i, -, -, h⟩ | h
  case inr.inl => exact .inl ⟨ht, hv⟩
  case inl =>
    rw [h]
    rcases issue_cases v s with ⟨c, h⟩ | ⟨-, -, h⟩ <;> rw [h]
    · exact .inr (.inl rfl)
    · exact .inr (.inr rfl)
  case inr.inr.inl => rw [h]; exact .inr (.inl rfl)
  all_goals rw [h]; exact .inr (.inr rfl)

/-! ### The obligations -/

/-- Settles O52: only the engine writes RESULT, in the completion of a GF command. -/
theorem onlyGfCommandsChangeResult : Obligations.OnlyGfCommandsChangeResult := by
  intro s t h hr hne
  obtain ⟨hturn, i, hd, he⟩ := completion_of_engineWritten_ne h hr (hne <| congrArg (·.1) ·)
  exact ⟨hturn, i, hd, (exec_result he).resolve_right hne⟩

/-- Settles O53: only the engine writes ZERO, and NOP and RS.GEN leave it alone. -/
theorem zeroChangesOnlyByItsCommands : Obligations.ZeroChangesOnlyByItsCommands := by
  intro s t h hr hne
  obtain ⟨hturn, i, hd, he⟩ := completion_of_engineWritten_ne h hr (hne <| congrArg (·.2.1) ·)
  exact ⟨hturn, i, hd, (exec_zero he).resolve_right hne⟩

/-- Settles O54: a completion never clears ERR, and of the write accesses only the acknowledgement does. -/
theorem errIsStickyUntilAcknowledged : Obligations.ErrIsStickyUntilAcknowledged := by
  intro s t h hr hset hclear
  rcases step_effect h hr with ⟨-, i, -, he⟩ | ⟨hturn, m, rest, a, v, hhost, ha, rfl⟩ | ⟨-, hunit, -⟩
  · rcases exec_err he with hkept | hkept <;> simp [hkept, hset] at hclear
  · rcases hostWrite_err a v (s.afterMove rest) with ⟨ht, hv⟩ | hkept | hkept
    · rw [eq_statusAddr_of_ofAddr ht] at ha
      exact ⟨hturn, m, rest, v, hhost, ha, hv⟩
    · simp [hkept] at hclear
    · simp [hkept, hset] at hclear
  · have hkept : t.unit.err = s.unit.err := congrArg State.err hunit
    exact absurd (hclear.symm.trans (hkept.trans hset)) Bool.false_ne_true

/-- Settles O55: GEN_VALID and GEN_N are written together, and then GEN_VALID is set. -/
theorem genValidIsClearedOnlyByReset : Obligations.GenValidIsClearedOnlyByReset := by
  intro s t h hr
  by_cases hsame : t.genValid = s.genValid ∧ t.genN = s.genN
  · obtain ⟨hvalid, hn⟩ := hsame
    exact ⟨fun hv => hvalid.trans hv, fun hne => absurd hne (by simp [hvalid, hn])⟩
  · have hne : t.engineWritten ≠ s.engineWritten := fun heq =>
      hsame ⟨congrArg (·.2.2.1) heq, congrArg (·.2.2.2.1) heq⟩
    obtain ⟨hturn, i, hd, he⟩ := completion_of_engineWritten_ne h hr hne
    rcases exec_generator he with ⟨n, rfl, rfl⟩ | ⟨-, hn, hvalid⟩
    · exact ⟨fun _ => rfl, fun _ => ⟨hturn, hd⟩⟩
    · exact absurd ⟨hvalid, hn⟩ hsame

/-- Settles O56: only the engine writes GEN and SYN, and of the write accesses only those to an entry of MSG, with BUSY = 0, change MSG. -/
theorem buffersHaveTheirOwnWriters : Obligations.BuffersHaveTheirOwnWriters := by
  intro s t h hr
  refine ⟨fun hne => ?_, fun hne => ?_, fun hne => ?_⟩
  · obtain ⟨hturn, i, hd, he⟩ := completion_of_engineWritten_ne h hr (hne <| congrArg (·.2.2.2.2.1) ·)
    rcases exec_generator he with ⟨n, rfl, -⟩ | ⟨hgen, -⟩
    · exact ⟨hturn, n, hd⟩
    · exact absurd hgen hne
  · obtain ⟨hturn, i, hd, he⟩ := completion_of_engineWritten_ne h hr (hne <| congrArg (·.2.2.2.2.2) ·)
    obtain ⟨n, l, rfl⟩ := (exec_syn he).resolve_right hne
    exact ⟨hturn, n, l, hd⟩
  · rcases step_effect h hr with ⟨hturn, i, hd, he⟩ | ⟨hturn, m, rest, a, v, hhost, ha, rfl⟩ | ⟨-, hunit, -⟩
    · obtain ⟨k, rfl⟩ := (exec_msg he).resolve_right hne
      exact .inl ⟨hturn, k, hd⟩
    · obtain ⟨hb, i, ht⟩ := (hostWrite_msg a v (s.afterMove rest)).resolve_right hne
      obtain ⟨hlo, hhi, -⟩ := ofAddr_eq_msg ht
      exact .inr ⟨hturn, hb, m, rest, a, v, hhost, ha, hlo, hhi⟩
    · exact absurd (congrArg State.msg hunit) hne

end Sys2Proof.Machine
end

section
/-! The invariant (10_state.md §4, §5, §7; 60_exceptions.md §2; 70_reset_and_hazards.md §3): one lemma for each way a step can change the
state, from which the state after reset, every step and every run of moves that the unit carries out follow. -/

namespace Sys2Proof.Machine

/-! ### What the invariant does not depend on -/

/-- An operand check reads nothing but CONFIG, GEN_VALID and GEN_N. -/
theorem operandCheck_congr (i : Instr) {s t : State} (hparams : t.params = s.params) (hvalid : t.genValid = s.genValid)
    (hn : t.genN = s.genN) : operandCheck i t = operandCheck i s := by
  cases i <;> simp only [operandCheck, rsGenCheck, rsDivCheck, rsSynCheck, hparams, hvalid, hn]

theorem State.Inv.pendingLegal_congr {s t : State} (h : s.Inv) (hparams : t.params = s.params)
    (hvalid : t.genValid = s.genValid) (hn : t.genN = s.genN) (hb : s.busy = true) :
    ∃ i, decode s.pending = .ok i ∧ operandCheck i t = none := by
  obtain ⟨i, hd, hc⟩ := h.pendingLegal hb
  exact ⟨i, hd, (operandCheck_congr i hparams hvalid hn).trans hc⟩

/-- The invariant speaks of the unit, and of the latency left. -/
theorem State.Inv.of_unit {s t : State} (h : s.Inv) (hunit : t.unit = s.unit) (hidle : t.busy = false → t.latLeft = 0) :
    t.Inv := by
  obtain ⟨⟩ := s
  obtain ⟨⟩ := t
  simp only [State.unit, State.mk.injEq] at hunit
  obtain ⟨rfl, rfl, rfl, rfl, rfl, rfl, rfl, rfl, rfl, rfl, rfl, rfl, -, -, -, -, -, rfl⟩ := hunit
  exact { h with pendingLegal := fun hb => h.pendingLegal hb, idle := hidle }

theorem State.Inv.afterMove {s : State} (h : s.Inv) (rest : List HostMove) : (s.afterMove rest).Inv :=
  h.of_unit rfl fun hb => by simp [h.idle hb]

/-! ### Reset -/

/-- The state after reset, whatever the parameters and however many reset edges there have been. -/
theorem inv_reset {p : Params} (hp : p.Legal) (r : Nat) : State.Inv { State.reset with params := p, resets := r } where
  params := hp
  genWf := .nil
  synWf := .nil
  msgWf := .nil
  genBelow := nofun
  synBelow := nofun
  msgBelow := nofun
  errcodeAssigned := Nat.zero_le 7
  errIff := ⟨nofun, fun h => absurd rfl h⟩
  noGenerator := fun _ => ⟨rfl, rfl⟩
  hasGenerator := nofun
  pendingLegal := nofun
  idle := fun _ => rfl

/-- The free parameters are in the ranges of R7 and R8. -/
theorem configParams_legal : Config.params.Legal := by
  have hn := Config.nMaxShortfall.isLt
  have hmax : Config.params.nMax = 254 - Config.nMaxShortfall := rfl
  have hdepth : Config.params.msgDepth = 4096 - Config.msgDepthShortfall % (4096 - Config.params.nMax) := rfl
  have hmod := Nat.mod_lt Config.msgDepthShortfall (y := 4096 - Config.params.nMax) (by omega)
  omega

theorem inv_accessInReset_applyReset {s : State} (hp : s.params.Legal) (x : Option Access) :
    (accessInReset x (applyReset s)).Inv := by
  refine (inv_reset hp (s.resets + 1)).of_unit (accessInReset_unit x _) fun _ => ?_
  rcases x with _ | ⟨_ | _⟩ <;> rfl

/-! ### Rejection, acknowledgement, acceptance, a write of MSG -/

theorem ErrCode.code_toNat_le (c : ErrCode) : c.code.toNat ≤ 7 := by cases c <;> decide

theorem ErrCode.code_ne_zero (c : ErrCode) : c.code ≠ 0 := by cases c <;> decide

section
variable {s : State} (h : s.Inv)
include h

theorem inv_reject (c : ErrCode) : (reject c s).Inv :=
  { h with
    errcodeAssigned := c.code_toNat_le
    errIff := ⟨fun _ => c.code_ne_zero, fun _ => rfl⟩
    pendingLegal := h.pendingLegal_congr rfl rfl rfl }

theorem inv_clearErr : (clearErr s).Inv :=
  { h with
    errcodeAssigned := Nat.zero_le 7
    errIff := by simp
    pendingLegal := h.pendingLegal_congr rfl rfl rfl }

/-- An accepted word is the command in flight, and it has just passed its check (R126). -/
theorem inv_accept {w : Word} {i : Instr} (hd : decode w = .ok i) (hc : operandCheck i s = none) : (accept w s).Inv :=
  { h with
    pendingLegal := fun _ => ⟨i, hd, (operandCheck_congr i rfl rfl rfl).trans hc⟩
    idle := nofun }

theorem inv_writeMsg {i : Nat} (v : Byte) (hi : i < s.params.msgDepth) : (writeMsg i v s).Inv :=
  { h with
    msgWf := Memory.store_wf h.msgWf i v
    msgBelow := Memory.store_below h.msgBelow hi v
    pendingLegal := h.pendingLegal_congr rfl rfl rfl }

theorem inv_issue (w : Word) : (issue w s).Inv := by
  rcases issue_cases w s with ⟨c, hw⟩ | ⟨-, ⟨i, hd, hc⟩, hw⟩ <;> rw [hw]
  · exact inv_reject h c
  · exact inv_accept h hd hc

theorem inv_hostWrite (a : BitVec 13) (v : Word) : (hostWrite a v s).Inv := by
  rcases hostWrite_cases a v s with ⟨-, hw⟩ | ⟨-, -, hw⟩ | ⟨i, -, -, hw⟩ | ⟨i, ht, -, hw⟩ | hw <;> rw [hw]
  · exact inv_issue h v
  · exact inv_clearErr h
  · exact inv_reject h _
  · exact inv_writeMsg h _ (ofAddr_eq_msg ht).2.2
  · exact h

end

/-! ### Completion -/

/-! What the operand checks of the RS commands let through (R88, R92, R96). -/

theorem rsGenCheck_eq_none_iff {n : Byte} {s : State} :
    operandCheck (.rsGen n) s = none ↔ n ≠ 0 ∧ n.toNat ≤ s.params.nMax := by
  simp only [operandCheck, rsGenCheck, ite_eq_right_iff, reduceCtorEq, imp_false, not_or, not_lt, ne_eq]

theorem rsDivCheck_eq_none_iff {k : BitVec 16} {s : State} :
    operandCheck (.rsDiv k) s = none ↔ s.genValid = true ∧ k.toNat + s.genN.toNat ≤ s.params.msgDepth := by
  rw [operandCheck, rsDivCheck]
  cases s.genValid <;> simp

theorem rsSynCheck_eq_none_iff {n : Byte} {l : BitVec 16} {s : State} :
    operandCheck (.rsSyn n l) s = none ↔ n ≠ 0 ∧ n.toNat ≤ s.params.nMax ∧ l.toNat ≤ s.params.msgDepth := by
  simp only [operandCheck, rsSynCheck, ite_eq_right_iff, reduceCtorEq, imp_false, not_or, not_lt, ne_eq]

/-- After RS.GEN the divisor of RS.DIV is what was written. -/
theorem generator_writeGenerator {n : Byte} {g : List Byte} (hg : g.length = n.toNat + 1) (s : State) :
    generator (writeGenerator n g s) = g := by
  refine List.ext_getElem? fun j => ?_
  by_cases hj : j < n.toNat + 1
  · have hrange : (List.range ((writeGenerator n g s).genN.toNat + 1))[j]? = some j := List.getElem?_range hj
    rw [getElem?_eq_genEntry_writeGenerator hg s n hj, generator, List.getElem?_map, hrange]
    rfl
  · rw [List.getElem?_eq_none (by simpa using hj), List.getElem?_eq_none (by omega)]

section
variable {s : State} (h : s.Inv) (hb : s.busy = false)
include h hb

theorem inv_writeGenerator {n : Byte} (hc : operandCheck (.rsGen n) s = none) :
    (writeGenerator n (genPoly n.toNat) s).Inv := by
  obtain ⟨hn, hmax⟩ := rsGenCheck_eq_none_iff.mp hc
  have hlen := genPoly_length n.toNat
  have hpos : n.toNat ≠ 0 := fun hzero => hn (BitVec.eq_of_toNat_eq hzero)
  have hend : 0 + (genPoly n.toNat).length ≤ s.params.nMax + 1 := by omega
  exact { h with
    genWf := Memory.storeRange_wf _ h.genWf 0
    genBelow := Memory.storeRange_below _ h.genBelow hend
    noGenerator := nofun
    hasGenerator := fun _ => ⟨Nat.one_le_iff_ne_zero.mpr hpos, hmax, generator_writeGenerator hlen s⟩
    pendingLegal := fun hbusy => absurd hbusy (ne_true_of_eq_false hb) }

theorem inv_writeEc {k : BitVec 16} {ec : List Byte} (hec : ec.length = s.genN.toNat)
    (hc : operandCheck (.rsDiv k) s = none) : (writeEc k.toNat ec s).Inv := by
  obtain ⟨-, hfits⟩ := rsDivCheck_eq_none_iff.mp hc
  have hend : k.toNat + ec.length ≤ s.params.msgDepth := by omega
  exact { h with
    msgWf := Memory.storeRange_wf _ h.msgWf _
    msgBelow := Memory.storeRange_below _ h.msgBelow hend
    pendingLegal := fun hbusy => absurd hbusy (ne_true_of_eq_false hb) }

theorem inv_writeSyndromes {n : Byte} {l : BitVec 16} {v : List Byte} (hv : v.length = n.toNat)
    (hc : operandCheck (.rsSyn n l) s = none) : (writeSyndromes v s).Inv := by
  obtain ⟨-, hmax, -⟩ := rsSynCheck_eq_none_iff.mp hc
  have hend : 0 + v.length ≤ s.params.nMax := by omega
  exact { h with
    synWf := Memory.storeRange_wf _ h.synWf 0
    synBelow := Memory.storeRange_below _ h.synBelow hend
    pendingLegal := fun hbusy => absurd hbusy (ne_true_of_eq_false hb) }

theorem inv_exec {i : Instr} {t : State} (he : exec i s = .next t) : t.Inv := by
  rcases exec_effect he with ⟨-, rfl⟩ | ⟨c, -, rfl⟩ | ⟨v, -, rfl⟩ | ⟨n, rfl, hc, rfl⟩ | ⟨k, rfl, hc, rfl⟩ | ⟨n, l, rfl, hc, rfl⟩
  · exact h
  · exact inv_reject h c
  · exact { h with pendingLegal := fun hbusy => absurd hbusy (ne_true_of_eq_false hb) }
  · exact inv_writeGenerator h hb hc
  · exact inv_writeEc h hb (by rw [rsRem_length, generator_length, Nat.add_sub_cancel]) hc
  · exact inv_writeSyndromes h hb (syndromes_length _ _) hc

end

/-- The state in which a due command completes: BUSY cleared, and no latency left. -/
theorem inv_busy_cleared {s : State} (h : s.Inv) (hlat : s.latLeft = 0) : State.Inv { s with busy := false } :=
  { h with pendingLegal := nofun, idle := fun _ => hlat }

/-! ### Every step -/

theorem inv_step {s t : State} (h : s.Inv) (hstep : step s = .next t) : t.Inv := by
  rcases step_cases s with ⟨hturn, hs⟩ | ⟨-, hs⟩ <;> rw [hs] at hstep
  · obtain ⟨-, hlat⟩ := (engineTurn_iff s).mp hturn
    obtain ⟨i, -, he⟩ := completion_next hstep
    exact inv_exec (inv_busy_cleared h hlat) rfl he
  · rcases hostTurn_effect hstep with ⟨x, rest, -, rfl⟩ | ⟨m, rest, a, v, -, -, rfl⟩ | ⟨hunit, hlat⟩
    · exact inv_accessInReset_applyReset (h.afterMove rest).params x
    · exact inv_hostWrite (h.afterMove rest) a v
    · refine h.of_unit hunit fun hb => ?_
      have hbusy : t.unit.busy = s.unit.busy := congrArg State.busy hunit
      rw [hlat, h.idle (hbusy.symm.trans hb)]

/-! ### A step always answers a next state -/

theorem exec_next (i : Instr) (s : State) : ∃ t, exec i s = .next t := by
  rcases exec_cases i s with ⟨h, -⟩ | ⟨c, h, -⟩ | ⟨v, h, -⟩ | ⟨n, -, h, -⟩ | ⟨k, -, h, -⟩ | ⟨n, l, -, h, -⟩ <;>
    exact ⟨_, h⟩

/-- A move that the unit carries out is taken from the list, or is a `wait` that stays. -/
theorem hostMove_progress {m : HostMove} (hm : m.carriedOut = true) (s : State) :
    ∃ t, hostMove m s = .next t ∧ (t.host = s.host ∨ t.host = .wait :: s.host) := by
  cases m with
  | cycle rst x => exact ⟨_, rfl, .inl (portCycle_host rst x s)⟩
  | bridge r =>
    cases hr : r.access with
    | ok x => exact ⟨performAccess x s, by simp [hostMove, hr], .inl (performAccess_host x s)⟩
    | error e => simp [HostMove.carriedOut, hr] at hm
  | wait => exact ⟨_, rfl, poll_host s⟩
  | outside r => cases hm

/-- Under the invariant the machine goes on while the host's moves are among moves that the unit carries out, `wait` being one. -/
theorem step_progress {P : HostMove → Bool} (hP : ∀ m, P m = true → m.carriedOut = true) (hwait : P .wait = true)
    {s : State} (h : s.Inv) (hhost : ∀ m ∈ s.host, P m = true) :
    ∃ t, step s = .next t ∧ ∀ m ∈ t.host, P m = true := by
  rcases step_cases s with ⟨hturn, hs⟩ | ⟨-, hs⟩ <;> rw [hs]
  · obtain ⟨hb, -⟩ := (engineTurn_iff s).mp hturn
    obtain ⟨i, hd, -⟩ := h.pendingLegal hb
    obtain ⟨t, he⟩ := exec_next i { s with busy := false }
    obtain ⟨-, hthost, -⟩ := exec_lifecycle he
    exact ⟨t, by simp [completion, hd, he], hthost ▸ hhost⟩
  · cases hlist : s.host with
    | nil => exact ⟨tick s, by simp [hostTurn, hlist], hhost⟩
    | cons m rest =>
      rw [hlist] at hhost
      obtain ⟨hm, hrest⟩ := List.forall_mem_cons.mp hhost
      obtain ⟨t, ht, hthost⟩ := hostMove_progress (hP m hm) (s.afterMove rest)
      refine ⟨t, by rw [hostTurn, hlist]; exact ht, ?_⟩
      rcases hthost with hthost | hthost <;> rw [hthost]
      · exact hrest
      · exact List.forall_mem_cons.mpr ⟨hwait, hrest⟩

/-! ### Runs -/

theorem run_succ {M : Host.Core} {s t : M.State} (h : M.step s = .next t) (k : Nat) : M.run (k + 1) s = M.run k t := by
  rw [Host.Core.run, h]

theorem core_run_succ {s t : State} (h : step s = .next t) (k : Nat) :
    Host.Core.run core (k + 1) s = Host.Core.run core k t := run_succ (M := core) h k

theorem safeRun_of_inv {s : State} (h : s.Inv) (hhost : ∀ m ∈ s.host, m.carriedOut = true) (k : Nat) : SafeRun k s := by
  induction k generalizing s with
  | zero => exact ⟨s, rfl⟩
  | succ k ih =>
    obtain ⟨t, ht, hthost⟩ := step_progress (fun _ => id) rfl h hhost
    obtain ⟨u, hu⟩ := ih (inv_step h ht) hthost
    exact ⟨u, (core_run_succ ht k).trans hu⟩

/-! ### The legal operands (30_encoding.md R70) -/

/-- Every command but RS.DIV is accepted, with legal operands, whatever the state. -/
theorem operandCheck_of_wellFormed {i : Instr} {s : State} (hw : i.wellFormed s.params = true) (hi : i.opcode ≠ .rsDiv) :
    operandCheck i s = none := by
  cases i with
  | nop | gfExp | gfMul | gfAdd => rfl
  | gfLog a => exact (gfLogCheck_eq_ite a).trans (if_neg (of_decide_eq_true hw))
  | rsGen n => exact rsGenCheck_eq_none_iff.mpr (of_decide_eq_true hw)
  | rsDiv k => exact absurd rfl hi
  | rsSyn n l => exact rsSynCheck_eq_none_iff.mpr (of_decide_eq_true hw)

theorem wellFormed_of_operandCheck {i : Instr} {s : State} (h : s.Inv) (hc : operandCheck i s = none) :
    i.wellFormed s.params = true := by
  cases i with
  | nop | gfExp | gfMul | gfAdd => rfl
  | gfLog a =>
    rw [operandCheck, gfLogCheck_eq_ite] at hc
    exact decide_eq_true (by simpa using hc)
  | rsGen n => exact decide_eq_true (rsGenCheck_eq_none_iff.mp hc)
  | rsDiv k =>
    obtain ⟨hvalid, hfits⟩ := rsDivCheck_eq_none_iff.mp hc
    obtain ⟨hpos, -, -⟩ := h.hasGenerator hvalid
    exact decide_eq_true (by omega)
  | rsSyn n l => exact decide_eq_true (rsSynCheck_eq_none_iff.mp hc)

/-- The unit with the parameters `p` after reset and an RS.GEN of degree 1. -/
def afterRsGenOne (p : Params) : State := writeGenerator 1 (genPoly 1) { State.reset with params := p }

theorem inv_afterRsGenOne {p : Params} (hp : p.Legal) : (afterRsGenOne p).Inv :=
  inv_writeGenerator (n := 1) (inv_reset hp 0) rfl
    (operandCheck_of_wellFormed (decide_eq_true ⟨by decide, hp.1⟩) (by decide))

/-! ### The obligations -/

/-- Settles O50: the completion of a command that passed its check, a reset edge and a write access each keep the invariant, and every other
move leaves the unit alone. -/
theorem everyStepKeepsTheInvariant : Obligations.EveryStepKeepsTheInvariant := fun _ _ => inv_step

/-- Settles O49: the buffers are empty, the flags 0 and the parameters in their ranges. -/
theorem resetStateMeetsTheInvariant : Obligations.ResetStateMeetsTheInvariant := inv_reset configParams_legal 0

/-- Settles O51: the invariant gives the completion a command, and the moves to come stay ones that are carried out. -/
theorem ordinaryHostNeverStopsTheMachine : Obligations.OrdinaryHostNeverStopsTheMachine := fun _ => safeRun_of_inv

/-- Settles O32: after an RS.GEN of degree 1 every command with legal operands is accepted. -/
theorem acceptedOperandsAreTheLegalOnes : Obligations.AcceptedOperandsAreTheLegalOnes := by
  refine ⟨fun i s h hc => wellFormed_of_operandCheck h hc, fun i p hp hw => ?_⟩
  refine ⟨afterRsGenOne p, inv_afterRsGenOne hp, rfl, ?_⟩
  by_cases hi : i.opcode = .rsDiv
  · cases i with
    | rsDiv k => exact rsDivCheck_eq_none_iff.mpr ⟨rfl, of_decide_eq_true hw⟩
    | nop | gfExp | gfLog | gfMul | gfAdd | rsGen | rsSyn => cases hi
  · exact operandCheck_of_wellFormed hw hi

end Sys2Proof.Machine
end

section
/-! The lifecycle of a command (70_reset_and_hazards.md §3, §4): its completion, what the host can do while it is in flight, and the runs
that end with its effect. -/

namespace Sys2Proof.Machine

/-! ### Completion -/

/-- The completion of a due command is its meaning with BUSY cleared (R126). -/
theorem step_of_due {s : State} {i : Instr} (hb : s.busy = true) (hlat : s.latLeft = 0) (hd : decode s.pending = .ok i) :
    step s = exec i { s with busy := false } := by
  have hturn : engineTurn s = true := (engineTurn_iff s).mpr ⟨hb, hlat⟩
  simp [step, hturn, completion, hd]

/-- Under the invariant a command in flight passes its check again when it completes (R110, R126). -/
theorem exists_completion {s : State} (h : s.Inv) (hb : s.busy = true) :
    ∃ i t, decode s.pending = .ok i ∧ operandCheck i { s with busy := false } = none ∧
      exec i { s with busy := false } = .next t := by
  obtain ⟨i, hd, hc⟩ := h.pendingLegal_congr (t := { s with busy := false }) rfl rfl rfl hb
  obtain ⟨t, he⟩ := exec_next i { s with busy := false }
  exact ⟨i, t, hd, hc, he⟩

/-! ### The host's turn while a command is in flight -/

theorem engineTurn_of_latLeft {s : State} (hlat : 0 < s.latLeft) : engineTurn s = false := by
  rw [← Bool.not_eq_true, engineTurn_iff]
  omega

/-- While BUSY = 1 a write access changes ERR and ERRCODE alone (R106, R128, R129, R131). -/
theorem hostWrite_of_busy (a : BitVec 13) (v : Word) {s : State} (hb : s.busy = true) :
    ∃ e c, hostWrite a v s = { s with err := e, errcode := c } := by
  rcases hostWrite_cases a v s with ⟨-, h⟩ | ⟨-, -, h⟩ | ⟨i, -, -, h⟩ | ⟨i, -, hidle, -⟩ | h
  case inl => exact ⟨_, _, h.trans (if_pos hb)⟩
  case inr.inr.inr.inl => simp [hb] at hidle
  all_goals exact ⟨_, _, h⟩

/-- A host turn while BUSY = 1, short of reset, changes of the unit ERR and ERRCODE alone, and uses up one move of the latency. -/
theorem hostTurn_of_busy {s t : State} (hb : s.busy = true) (hlat : 0 < s.latLeft) (hr : s.stepResets = false)
    (h : step s = .next t) :
    t.unit = { s.unit with err := t.err, errcode := t.errcode } ∧ t.latLeft = s.latLeft - 1 := by
  have hhost := engineTurn_of_latLeft hlat
  rcases step_effect h hr with ⟨hturn, -⟩ | ⟨-, m, rest, a, v, -, -, rfl⟩ | ⟨-, hunit, hleft⟩
  · exact absurd (hhost.symm.trans hturn) Bool.false_ne_true
  · obtain ⟨e, c, hw⟩ := hostWrite_of_busy a v (s := s.afterMove rest) hb
    rw [hw]
    exact ⟨rfl, rfl⟩
  · have herr : t.unit.err = s.unit.err := congrArg State.err hunit
    have hcode : t.unit.errcode = s.unit.errcode := congrArg State.errcode hunit
    refine ⟨?_, hleft⟩
    change t.unit = { s.unit with err := t.unit.err, errcode := t.unit.errcode }
    rw [herr, hcode, hunit]

theorem carriedOut_of_ordinary {m : HostMove} (h : m.ordinary = true) : m.carriedOut = true := by
  cases m with
  | cycle => rfl
  | bridge | wait | outside => exact h

theorem stepResets_of_ordinary {s : State} (hhost : ∀ m ∈ s.host, m.ordinary = true) : s.stepResets = false := by
  unfold State.stepResets
  split
  · rename_i rst x rest hlist
    have hrst := hhost _ (hlist ▸ List.mem_cons_self)
    simp only [HostMove.ordinary, Bool.not_eq_true'] at hrst
    rw [hrst, Bool.and_false]
  · exact Bool.and_false _

/-! ### Runs -/

theorem run_of_run_step {M : Host.Core} {s u t : M.State} (k : Nat) (hk : M.run k s = .next u) (h : M.step u = .next t) :
    M.run (k + 1) s = .next t := by
  induction k generalizing s with
  | zero =>
    cases hk
    rw [run_succ h]
    rfl
  | succ k ih =>
    rw [Host.Core.run] at hk ⊢
    cases hs : M.step s with
    | next v =>
      rw [hs] at hk
      exact ih hk
    | fault r | refused r => simp [hs] at hk

/-- Ordinary moves pass until the command is due, and leave the unit as it was but for ERR and ERRCODE. -/
theorem run_until_due {s : State} (h : s.Inv) (hb : s.busy = true) (hhost : ∀ m ∈ s.host, m.ordinary = true) :
    ∃ u, Host.Core.run core s.latLeft s = .next u ∧ u.Inv ∧ u.latLeft = 0 ∧
      u.unit = { s.unit with err := u.err, errcode := u.errcode } := by
  induction hn : s.latLeft generalizing s with
  | zero => exact ⟨s, rfl, h, hn, rfl⟩
  | succ n ih =>
    obtain ⟨t, ht, hthost⟩ := step_progress (P := HostMove.ordinary) (fun _ => carriedOut_of_ordinary) rfl h hhost
    obtain ⟨hunit, hleft⟩ := hostTurn_of_busy hb (by omega) (stepResets_of_ordinary hhost) ht
    have hbusy : t.unit.busy = true := (congrArg State.busy hunit).trans hb
    obtain ⟨u, hrun, hu, hdue, huunit⟩ := ih (inv_step h ht) hbusy hthost (by omega)
    exact ⟨u, (core_run_succ ht n).trans hrun, hu, hdue, by rw [huunit, hunit]⟩

/-! ### `wait` -/

/-- `wait` reads STATUS, and stays while BUSY reads 1 (30_encoding.md R73). -/
theorem poll_of_busy {s : State} (hb : s.busy = true) :
    poll s = { s with rdata := statusWord s, host := .wait :: s.host } := by
  have hread : hostRead statusAddr s = { s with rdata := statusWord s } := hostRead_of_visible (ofAddr_status _) (.inr rfl)
  have hbit : (statusWord s).getLsbD 0 = true := (statusWord_getLsbD s (by decide)).trans hb
  simp only [poll, hread, hbit, if_true]

theorem poll_of_idle {s : State} (hb : s.busy = false) : poll s = { s with rdata := statusWord s } := by
  have hread : hostRead statusAddr s = { s with rdata := statusWord s } := hostRead_of_visible (ofAddr_status _) (.inr rfl)
  have hbit : (statusWord s).getLsbD 0 = false := (statusWord_getLsbD s (by decide)).trans hb
  simp only [poll, hread, hbit, Bool.false_eq_true, if_false]

theorem step_of_wait {s : State} {rest : List HostMove} (hturn : engineTurn s = false) (hhost : s.host = .wait :: rest) :
    step s = .next (poll (s.afterMove rest)) := by
  rw [step_of_hostTurn hturn, hostTurn, hhost]
  rfl

/-- `wait` passes the latency with nothing changed but the data read. -/
theorem run_wait_until_due {s : State} {rest : List HostMove} (hb : s.busy = true) (hhost : s.host = .wait :: rest) :
    ∃ r, Host.Core.run core s.latLeft s = .next { s with rdata := r, latLeft := 0 } := by
  induction hn : s.latLeft generalizing s with
  | zero =>
    have hdue : { s with rdata := s.rdata, latLeft := 0 } = s := by rw [← hn]
    exact ⟨s.rdata, congrArg Host.Outcome.next hdue.symm⟩
  | succ n ih =>
    have hstep := step_of_wait (engineTurn_of_latLeft (by omega)) hhost
    rw [poll_of_busy (s := s.afterMove rest) hb] at hstep
    obtain ⟨r, hrun⟩ := ih (s := { s.afterMove rest with rdata := statusWord (s.afterMove rest), host := .wait :: rest })
      hb rfl (by simp [hn])
    refine ⟨r, (core_run_succ hstep n).trans (hrun.trans ?_)⟩
    rw [← hhost]
    rfl

theorem perform_with_rdata {c : Option ErrCode} {f : State → State} {s : State} (r : Word)
    (hf : f { s with rdata := r } = { f s with rdata := r }) :
    perform c f { s with rdata := r } = { perform c f s with rdata := r } := by
  cases c with
  | none => exact hf
  | some e => rfl

/-- A meaning neither reads nor writes `rdata`. -/
theorem exec_with_rdata {i : Instr} {s t : State} (r : Word) (h : exec i s = .next t) :
    exec i { s with rdata := r } = .next { t with rdata := r } := by
  cases i with
  | nop | gfExp | gfMul | gfAdd => cases h; rfl
  | gfLog a =>
    cases h
    simp only [exec, execGfLog]
    cases logRom a <;> rfl
  | rsGen n => cases h; exact congrArg _ (perform_with_rdata (c := operandCheck (.rsGen n) s) r rfl)
  | rsDiv k => cases h; exact congrArg _ (perform_with_rdata (c := operandCheck (.rsDiv k) s) r rfl)
  | rsSyn n l => cases h; exact congrArg _ (perform_with_rdata (c := operandCheck (.rsSyn n l) s) r rfl)

/-! ### The obligations -/

/-- Settles O33: the engine's turn decodes PENDING and runs the command's meaning. -/
theorem stepRunsThePendingCommand : Obligations.StepRunsThePendingCommand := fun _ _ => step_of_due

/-- Settles O34: the operand check reads nothing that changes between issue and completion. -/
theorem completionNeverRejects : Obligations.CompletionNeverRejects := by
  intro s h hb hlat
  obtain ⟨i, t, hd, hc, he⟩ := exists_completion h hb
  obtain ⟨hbusy, -, -⟩ := exec_lifecycle he
  obtain ⟨herr, hcode⟩ := exec_err_of_check he hc
  exact ⟨i, t, hd, hc, (step_of_due hb hlat hd).trans he, hbusy, herr, hcode⟩

/-- Settles O35: while BUSY = 1 a write access rejects or acknowledges, and every other move leaves the unit alone. -/
theorem hostCannotTouchEngineInputs : Obligations.HostCannotTouchEngineInputs :=
  fun _ _ hb hlat hr h => (hostTurn_of_busy hb hlat hr h).1

/-- Settles O36, by induction on the latency. -/
theorem acceptedCommandCompletes : Obligations.AcceptedCommandCompletes := by
  intro s h hb hhost
  obtain ⟨u, hrun, hu, hdue, hunit⟩ := run_until_due h hb hhost
  have hbusy : u.busy = true := (congrArg State.busy hunit :).trans hb
  have hpending : u.pending = s.pending := (congrArg State.pending hunit :)
  obtain ⟨i, t, hd, -, he⟩ := exists_completion hu hbusy
  obtain ⟨htbusy, -, -⟩ := exec_lifecycle he
  exact ⟨i, u, t, hpending ▸ hd, hrun, hunit, he,
    run_of_run_step (M := core) _ hrun ((step_of_due hbusy hdue hd).trans he), htbusy⟩

/-- Settles O37: `wait` polls until the command is due, the command completes, and the next poll reads BUSY = 0. -/
theorem waitEndsWithTheCommandsEffect : Obligations.WaitEndsWithTheCommandsEffect := by
  intro s rest h hb hhost
  obtain ⟨i, hd, -⟩ := h.pendingLegal hb
  obtain ⟨t, he⟩ := exec_next i { s with busy := false, latLeft := 0 }
  obtain ⟨hbusy, hthost, hlat⟩ := exec_lifecycle he
  obtain ⟨r, hwaited⟩ := run_wait_until_due hb hhost
  have hcompleted := run_of_run_step (M := core) _ hwaited
    ((step_of_due (s := { s with rdata := r, latLeft := 0 }) hb rfl hd).trans (exec_with_rdata r he))
  have hturn : engineTurn { t with rdata := r } = false := by
    rw [← Bool.not_eq_true, engineTurn_iff]
    exact fun ⟨hset, _⟩ => Bool.false_ne_true (hbusy.symm.trans hset)
  have hpolled := step_of_wait (s := { t with rdata := r }) hturn (hthost.trans hhost)
  rw [poll_of_idle (s := State.afterMove { t with rdata := r } rest) hbusy] at hpolled
  refine ⟨i, t, hd, he, (run_of_run_step (M := core) _ hcompleted hpolled).trans ?_⟩
  have hzero : t.latLeft = 0 := hlat
  simp [State.afterMove, tick, hzero, statusWord]

end Sys2Proof.Machine
end

section
/-! Reads that change nothing and reads that are hidden (20_memory.md R54; 70_reset_and_hazards.md R130), bridge requests (20_memory.md
R42, R53), the reset edge (70_reset_and_hazards.md §1, §2), and the assembler (30_encoding.md §5). -/

namespace Sys2Proof.Machine

/-! ### Reads -/

/-- Settles O44: a read access writes `rdata` and the count of free values, and CMD's value is 0. -/
theorem readsHaveNoSideEffect : Obligations.ReadsHaveNoSideEffect := by
  intro s a rest h
  refine ⟨_, step_of_presents h, hostRead_unit a _, hostRead_host a _, ?_⟩
  rintro rfl
  rw [performAccess, hostRead_of_visible (ofAddr_cmd _) (.inr rfl)]
  rfl

/-- While BUSY = 1 a read of a hidden target draws a free value (R130). -/
theorem hostRead_of_hidden {s : State} {a : BitVec 13} {t : Target} (ht : Target.ofAddr s.params a = t)
    (hb : s.busy = true) (hhidden : t.hiddenWhileBusy = true) :
    hostRead a s = { s with rdata := Config.busyRead s.draws, draws := s.draws + 1 } := by
  subst ht
  exact if_pos (by rw [hb, hhidden]; rfl)

/-- The addresses that R130 lists name targets that are hidden while BUSY = 1. -/
theorem hiddenWhileBusy_of_address {p : Params} (hp : p.Legal) {a : BitVec 13}
    (ha : a = 2 ∨ a = 3 ∨ (0x0400 ≤ 4 * a.toNat ∧ 4 * a.toNat ≤ 0x0400 + 4 * p.nMax) ∨
      (0x0800 ≤ 4 * a.toNat ∧ 4 * a.toNat < 0x0800 + 4 * p.nMax) ∨
      (0x4000 ≤ 4 * a.toNat ∧ 4 * a.toNat < 0x4000 + 4 * p.msgDepth)) :
    (Target.ofAddr p a).hiddenWhileBusy = true := by
  rcases ha with rfl | rfl | ⟨hlo, hhi⟩ | ⟨hlo, hhi⟩ | ⟨hlo, hhi⟩
  · rfl
  · rfl
  · have haddr : 4 * a.toNat = 0x0400 + 4 * (a.toNat - 0x100) := by omega
    rw [Target.ofAddr, haddr, ofByteAddr_gen (by omega)]
    rfl
  · have haddr : 4 * a.toNat = 0x0800 + 4 * (a.toNat - 0x200) := by omega
    rw [Target.ofAddr, haddr, ofByteAddr_syn hp (by omega)]
    rfl
  · obtain ⟨i, ht⟩ := exists_ofAddr_msg hp hlo hhi
    rw [ht]
    rfl

/-- Settles O45: the listed addresses name the hidden targets. -/
theorem busyReadDrawsAFreshValue : Obligations.BusyReadDrawsAFreshValue := by
  intro s a rest h hb hp ha
  rw [step_of_presents h, performAccess]
  exact congrArg _ (hostRead_of_hidden (s := s.afterMove rest) rfl hb (hiddenWhileBusy_of_address hp ha))

/-! ### Bridge requests -/

section
variable {s : State} {r : BridgeRequest} {rest : List HostMove} (hturn : engineTurn s = false)
  (hhost : s.host = .bridge r :: rest)
include hturn hhost

theorem step_of_refused_request {e : Refusal} (he : r.access = .error e) : step s = .refused e := by
  rw [step_of_hostTurn hturn, hostTurn, hhost]
  simp only [hostMove, he]

/-- A request that the bridge passes on is the port cycle with its access. -/
theorem step_of_passed_request {x : Access} (hx : r.access = .ok x) :
    step s = step { s with host := .cycle false (some x) :: rest } := by
  rw [step_of_hostTurn hturn, step_of_hostTurn (s := { s with host := .cycle false (some x) :: rest }) hturn, hostTurn,
    hostTurn, hhost]
  simp only [hostMove, hx]
  rfl

end

/-- Settles O46: the bridge's checks in their order. -/
theorem bridgePassesWholeAlignedWords : Obligations.BridgePassesWholeAlignedWords := by
  refine ⟨fun s r rest hturn hhost => ?_, fun s r rest hturn hhost => ⟨fun hwidth halign hrange => ?_, fun hwidth => ?_,
    fun hwidth halign => ?_, fun hwidth halign hrange => ?_⟩⟩
  · rw [step_of_hostTurn hturn, hostTurn, hhost]
    rfl
  · cases hdata : r.data with
    | none =>
      refine ⟨_, rfl, step_of_passed_request hturn hhost ?_⟩
      simp [BridgeRequest.access, hwidth, halign, hrange, hdata]
    | some v =>
      refine ⟨_, rfl, step_of_passed_request hturn hhost ?_⟩
      simp [BridgeRequest.access, hwidth, halign, hrange, hdata]
  · refine step_of_refused_request hturn hhost ?_
    rw [BridgeRequest.access, if_pos hwidth]
  · refine step_of_refused_request hturn hhost ?_
    rw [BridgeRequest.access, if_neg (not_not.mpr hwidth), if_pos halign]
  · refine step_of_refused_request hturn hhost ?_
    rw [BridgeRequest.access, if_neg (not_not.mpr hwidth), if_neg (not_not.mpr halign), if_pos hrange]

/-! ### The reset edge -/

theorem step_of_reset_cycle {s : State} {x : Option Access} {rest : List HostMove} (hturn : engineTurn s = false)
    (hhost : s.host = .cycle true x :: rest) :
    step s = .next (accessInReset x (applyReset (s.afterMove rest))) := by
  rw [step_of_hostTurn hturn, hostTurn, hhost]
  rfl

/-- An access in a cycle of reset writes `rdata` alone, 0 for a read (R119). -/
theorem accessInReset_eq (x : Option Access) (s : State) :
    ∃ r, accessInReset x s = { s with rdata := r } ∧ ∀ a, x = some (.read a) → r = 0 := by
  rcases x with _ | ⟨a⟩ | ⟨a, v⟩
  · exact ⟨s.rdata, rfl, nofun⟩
  · exact ⟨0, rfl, fun _ _ => rfl⟩
  · exact ⟨s.rdata, rfl, nofun⟩

/-- Settles O47: `applyReset` writes the listed values, and an access presented with it at most `rdata`. -/
theorem resetEdgeSetsTheListedValues : Obligations.ResetEdgeSetsTheListedValues := by
  intro s x rest hturn hhost
  obtain ⟨r, hreset, hread⟩ := accessInReset_eq x (applyReset (s.afterMove rest))
  refine ⟨_, step_of_reset_cycle hturn hhost, ?_⟩
  rw [hreset]
  exact ⟨rfl, rfl, rfl, rfl, rfl, rfl, rfl, rfl, rfl, rfl, hread, fun i => ⟨rfl, rfl, rfl⟩⟩

/-- With BUSY = 0 every legal command but RS.DIV is accepted. -/
theorem step_of_legal_command {s : State} {w : Word} {i : Instr} {rest : List HostMove} (hb : s.busy = false)
    (hhost : s.host = .cycle false (some (.write 0 w)) :: rest) (hd : decode w = .ok i) (hi : i.opcode ≠ .rsDiv)
    (hw : i.wellFormed s.params = true) : ∃ t, step s = .next t ∧ t.busy = true ∧ t.pending = w := by
  have hturn : engineTurn s = false := by simp [engineTurn, hb]
  obtain ⟨lat, draws, plan, haccept⟩ := step_of_passed_check ⟨hturn, hhost⟩ hb hd (operandCheck_of_wellFormed hw hi)
  exact ⟨_, haccept, rfl, rfl⟩

/-- Settles O48: after the reset edge BUSY is 0, and of the operand checks only RS.DIV's reads what reset has cleared. -/
theorem firstCycleAfterResetAcceptsCommands : Obligations.FirstCycleAfterResetAcceptsCommands := by
  intro s x w i rest hturn hhost hd hi hw
  have hreset := step_of_reset_cycle hturn hhost
  obtain ⟨r, heq, -⟩ := accessInReset_eq x (applyReset (s.afterMove (.cycle false (some (.write 0 w)) :: rest)))
  rw [heq] at hreset
  obtain ⟨t, ht, hbusy, hpending⟩ := step_of_legal_command
    (s := { applyReset (s.afterMove (.cycle false (some (.write 0 w)) :: rest)) with rdata := r }) rfl rfl hd hi hw
  exact ⟨t, (core_run_succ hreset 1).trans (core_run_succ ht 0), hbusy, hpending⟩

/-! ### The assembler -/

section
variable {α β : Type} {p q : Prop} [Decidable p] [Decidable q] {x : α} {y : β} {w : Word}

/-- A command line with one operand: the operand's field is `x` if the operand fits, which is `p`. -/
theorem assemble_one {i : α → Instr} (hword : p → encode (i x) = w) :
    ((if p then some x else none).bind fun v => some [commandMove (i v)]) = if p then some [storeWord 0 w] else none := by
  split_ifs with hp
  · rw [← hword hp]
    rfl
  · rfl

/-- A command line with two operands, which fit under `p` and `q`. -/
theorem assemble_two {i : α → β → Instr} (hword : p → q → encode (i x y) = w) :
    ((if p then some x else none).bind fun v =>
      (if q then some y else none).bind fun u => some [commandMove (i v u)]) =
      if p ∧ q then some [storeWord 0 w] else none := by
  by_cases hp : p
  · simp only [hp, if_true, true_and, Option.bind_some]
    exact assemble_one (hword hp)
  · simp only [hp, if_false, false_and, Option.bind_none]

end

/-- The command word of format S whose operands fit (R63). -/
theorem formatS_ofNat {m a b : Nat} {c : Byte} (h : m = c.toNat * 2 ^ 24 + a * 2 ^ 16 + b * 2 ^ 8) (ha : a ≤ 255)
    (hb : b ≤ 255) : formatS c (BitVec.ofNat 8 a) (BitVec.ofNat 8 b) = BitVec.ofNat 32 m := by
  refine (ofNat_eq_formatS ?_).symm
  rw [h, BitVec.toNat_ofNat, BitVec.toNat_ofNat, Nat.mod_eq_of_lt (Nat.lt_succ_of_le ha),
    Nat.mod_eq_of_lt (Nat.lt_succ_of_le hb)]

/-- The command word of format P whose operands fit (R64). -/
theorem formatP_ofNat {m n k : Nat} {c : Byte} (h : m = c.toNat * 2 ^ 24 + n * 2 ^ 16 + k) (hn : n ≤ 255)
    (hk : k ≤ 65535) : formatP c (BitVec.ofNat 8 n) (BitVec.ofNat 16 k) = BitVec.ofNat 32 m := by
  refine (ofNat_eq_formatP ?_).symm
  rw [h, BitVec.toNat_ofNat, BitVec.toNat_ofNat, Nat.mod_eq_of_lt (Nat.lt_succ_of_le hn),
    Nat.mod_eq_of_lt (Nat.lt_succ_of_le hk)]

/-- Settles O57: an operand that fits is its field, and the word is put together from opcode and fields. -/
theorem assemblerEmitsTheEncodedWord : Obligations.AssemblerEmitsTheEncodedWord := fun a b =>
  ⟨rfl,
    assemble_one fun ha => formatS_ofNat (b := 0) rfl ha (Nat.zero_le _),
    assemble_one fun ha => formatS_ofNat (b := 0) rfl ha (Nat.zero_le _),
    assemble_two fun ha hb => formatS_ofNat rfl ha hb,
    assemble_two fun ha hb => formatS_ofNat rfl ha hb,
    assemble_one fun ha => formatP_ofNat (k := 0) rfl ha (Nat.zero_le _),
    assemble_one fun ha => formatP_ofNat (n := 0) (by simp) (Nat.zero_le _) ha,
    assemble_two fun ha hb => formatP_ofNat rfl ha hb⟩

theorem wordOperand_of_lt {v : Nat} (h : v < 2 ^ 32) : wordOperand v = some (BitVec.ofNat 32 v) := if_pos h

/-- The writes of `msg.ld`, one a codeword (R73). -/
theorem msgLoads_eq (i : Nat) (cs : List Nat) (h : ∀ c ∈ cs, c < 2 ^ 32) :
    msgLoads i cs =
      some ((List.range cs.length).map fun t => storeWord (0x4000 + 4 * (i + t)) (BitVec.ofNat 32 (cs.getD t 0))) := by
  induction cs generalizing i with
  | nil => rfl
  | cons c cs ih =>
    obtain ⟨hc, hcs⟩ := List.forall_mem_cons.mp h
    rw [msgLoads, wordOperand_of_lt hc, ih (i + 1) hcs, List.length_cons, List.range_succ_eq_map, List.map_cons,
      List.map_map]
    simp only [Function.comp_def, Nat.succ_eq_add_one, List.getD_cons_succ, Nat.add_right_comm i, Nat.add_assoc]
    rfl

/-- A program of `lw` lines is its reads, in order. -/
theorem assembleAll_lw (f : Nat → Nat) (l : List Nat) :
    assembleAll (l.map fun t => .lw (f t)) = some (l.map fun t => loadWord (f t)) := by
  induction l with
  | nil => rfl
  | cons t l ih =>
    rw [List.map_cons, assembleAll, ih]
    rfl

/-- Settles O58: `gf.li`, `gf.sqr`, `rs.chk` and `errclr` are the lines themselves, `msg.ld` and `msg.rd` one access an entry. -/
theorem pseudoInstructionsExpand : Obligations.PseudoInstructionsExpand := by
  exact ⟨rfl, fun a => rfl, fun a => rfl, fun k n => rfl, msgLoads_eq, fun i m => (assembleAll_lw _ _).symm⟩

end Sys2Proof.Machine
end

section
/-! Polynomials over GF(256) as coefficient lists (41_reed_solomon.md §2–§4): sums of lists of one length, long division by a monic
divisor, values, the generator polynomials and their roots. -/

namespace Sys2Proof.Machine

/-! ### Sums -/

@[simp] theorem polyXorFront_cons (x y : GfValue) (r p : List GfValue) :
    polyXorFront (x :: r) (y :: p) = gfAdd x y :: polyXorFront r p := rfl

@[simp] theorem polyXorFront_nil (r : List GfValue) : polyXorFront r [] = r := by cases r <;> rfl

theorem getD_append_zeros (p : List GfValue) (m j : Nat) : (p ++ List.replicate m 0).getD j 0 = p.getD j 0 := by
  rcases Nat.lt_or_ge j p.length with hj | hj
  · rw [List.getD_append _ _ _ _ hj]
  · rw [List.getD_append_right _ _ _ _ hj, List.getD_eq_getElem?_getD, List.getElem?_getD_replicate_default_eq,
      List.getD_eq_default _ _ hj]

/-- Zeros behind what is added change nothing. -/
@[simp] theorem polyXorFront_append_zeros (r p : List GfValue) (m : Nat) :
    polyXorFront r (p ++ List.replicate m 0) = polyXorFront r p := by
  refine List.ext_getElem? fun j => ?_
  rw [polyXorFront_getElem?, polyXorFront_getElem?, getD_append_zeros]

@[simp] theorem polyXorFront_zeros (r : List GfValue) (m : Nat) : polyXorFront r (List.replicate m 0) = r :=
  (polyXorFront_append_zeros r [] m).trans (polyXorFront_nil r)

theorem zeros_polyXorFront (p : List GfValue) : polyXorFront (List.replicate p.length 0) p = p := by
  induction p with
  | nil => rfl
  | cons x p ih => rw [List.length_cons, List.replicate_succ, polyXorFront_cons, ih, zero_gfAdd]

theorem polyXorFront_assoc {a b : List GfValue} (h : a.length = b.length) (c : List GfValue) :
    polyXorFront (polyXorFront a b) c = polyXorFront a (polyXorFront b c) := by
  induction a generalizing b c with
  | nil => rfl
  | cons x a ih =>
    obtain _ | ⟨y, b⟩ := b
    · simp at h
    obtain _ | ⟨z, c⟩ := c
    · simp only [polyXorFront_nil]
    · simp only [polyXorFront_cons, gfAdd_assoc, ih (Nat.succ.inj h)]

theorem polyXorFront_comm {a b : List GfValue} (h : a.length = b.length) : polyXorFront a b = polyXorFront b a := by
  induction a generalizing b with
  | nil =>
    rw [List.length_nil, eq_comm, List.length_eq_zero_iff] at h
    rw [h]
  | cons x a ih =>
    obtain _ | ⟨y, b⟩ := b
    · simp at h
    · rw [polyXorFront_cons, polyXorFront_cons, gfAdd_comm, ih (Nat.succ.inj h)]

theorem polyXorFront_cancel {a b : List GfValue} (h : a.length = b.length) :
    polyXorFront a (polyXorFront a b) = b := by
  induction a generalizing b with
  | nil =>
    rw [List.length_nil, eq_comm, List.length_eq_zero_iff] at h
    rw [h]
    rfl
  | cons x a ih =>
    obtain _ | ⟨y, b⟩ := b
    · simp at h
    · rw [polyXorFront_cons, polyXorFront_cons, gfAdd_gfAdd_cancel, ih (Nat.succ.inj h)]

/-- A summand is taken to the other side. -/
theorem polyXorFront_eq_iff {a b c : List GfValue} (hab : a.length = b.length) (hac : a.length = c.length) :
    polyXorFront a b = c ↔ b = polyXorFront c a := by
  rw [polyXorFront_comm hac.symm]
  constructor
  · rintro rfl
    exact (polyXorFront_cancel hab).symm
  · rintro rfl
    exact polyXorFront_cancel hac

/-! ### Products -/

theorem polyMul_length (q : List GfValue) {g : List GfValue} (hg : g ≠ []) :
    (polyMul q g).length = q.length + (g.length - 1) := by
  have hpos := List.length_pos_iff.mpr hg
  cases q with
  | nil => simp [polyMul]
  | cons c q =>
    simp only [polyMul, polyXorFront_length, List.length_append, polyScale_length, List.length_replicate, List.length_cons]
    omega

theorem polyScale_one_cons (c : GfValue) (lower : List GfValue) : polyScale c (1 :: lower) = c :: polyScale c lower := by
  rw [polyScale, List.map_cons, gfMul_comm, gfMul_one]
  rfl

@[simp] theorem polyScale_zero (p : List GfValue) : polyScale 0 p = List.replicate p.length 0 := by
  simp only [polyScale, gfMul_zero_right, List.map_const']

theorem zeros_polyMul (m : Nat) {g : List GfValue} (hg : g ≠ []) :
    polyMul (List.replicate m 0) g = List.replicate (m + (g.length - 1)) 0 := by
  have hpos := List.length_pos_iff.mpr hg
  induction m with
  | zero => simp [polyMul]
  | succ m ih =>
    have hlen : g.length + m = m + 1 + (g.length - 1) := by omega
    rw [List.replicate_succ, polyMul, ih, polyScale_zero, List.length_replicate, List.replicate_append_replicate, hlen,
      ← List.replicate_succ, Nat.add_right_comm, polyXorFront_zeros]

/-- The product by a monic divisor of a quotient with leading coefficient `c`. -/
theorem cons_polyMul_monic (c : GfValue) (q lower : List GfValue) :
    polyMul (c :: q) (1 :: lower) =
      c :: polyXorFront (polyScale c lower ++ List.replicate q.length 0) (polyMul q (1 :: lower)) := by
  rw [polyMul, polyScale_one_cons, List.cons_append, polyXorFront_cons, gfAdd_zero]

/-! ### Long division (41_reed_solomon.md R90, R91) -/

/-- An iteration of R90 with a monic divisor, whether or not the lead is 0. -/
theorem remStep_monic (lower : List GfValue) (lead : GfValue) (rest : List GfValue) :
    remStep (1 :: lower) (lead :: rest) = polyXorFront rest (polyScale lead lower) := by
  unfold remStep
  dsimp only
  split_ifs with hlead
  · rw [hlead, polyScale_zero, polyXorFront_zeros]
  · rw [polyScale_one_cons, polyXorFront_cons, List.tail_cons]

/-- `ρ` is left over when `k` coefficients of `r` have been divided by the monic `1 :: lower`: `r = q · g + ρ` for some quotient `q` of
`k` coefficients. -/
def IsRemainder (lower : List GfValue) (k : Nat) (r ρ : List GfValue) : Prop :=
  ∃ q : List GfValue, q.length = k ∧ polyXorFront (polyMul q (1 :: lower)) (List.replicate k 0 ++ ρ) = r

/-- The quotient's leading coefficient is the dividend's, and the rest of the quotient divides what R90's iteration leaves. -/
theorem isRemainder_succ_iff {lower rest ρ : List GfValue} {k : Nat} (lead : GfValue)
    (hrest : rest.length = k + lower.length) :
    IsRemainder lower (k + 1) (lead :: rest) ρ ↔ IsRemainder lower k (remStep (1 :: lower) (lead :: rest)) ρ := by
  have hcons : ∀ (c : GfValue) (q : List GfValue), q.length = k →
      (polyXorFront (polyMul (c :: q) (1 :: lower)) (List.replicate (k + 1) 0 ++ ρ) = lead :: rest ↔
        c = lead ∧ polyXorFront (polyMul q (1 :: lower)) (List.replicate k 0 ++ ρ) =
          polyXorFront rest (polyScale c lower)) := by
    intro c q hq
    have hmul : (polyMul q (1 :: lower)).length = k + lower.length := by
      rw [polyMul_length q (List.cons_ne_nil _ _), hq]
      rfl
    have hscale : (polyScale c lower ++ List.replicate k 0).length = k + lower.length := by
      rw [List.length_append, polyScale_length, List.length_replicate, Nat.add_comm]
    rw [cons_polyMul_monic, List.replicate_succ, List.cons_append, polyXorFront_cons, gfAdd_zero, List.cons.injEq, hq,
      polyXorFront_assoc (hscale.trans hmul.symm),
      polyXorFront_eq_iff (hscale.trans (by rw [polyXorFront_length, hmul])) (hscale.trans hrest.symm),
      polyXorFront_append_zeros]
  rw [remStep_monic]
  constructor
  · rintro ⟨q, hq, h⟩
    obtain ⟨c, q, rfl⟩ := List.exists_cons_of_length_eq_add_one hq
    obtain ⟨rfl, htail⟩ := (hcons c q (Nat.succ.inj hq)).mp h
    exact ⟨q, Nat.succ.inj hq, htail⟩
  · rintro ⟨q, hq, h⟩
    exact ⟨lead :: q, congrArg Nat.succ hq, (hcons lead q hq).mpr ⟨rfl, h⟩⟩

/-- The loop of R90 finds the remainder, and there is only one. -/
theorem isRemainder_iff {lower r ρ : List GfValue} {k : Nat} (hρ : ρ.length = lower.length)
    (hr : r.length = k + lower.length) : IsRemainder lower k r ρ ↔ ρ = remLoop (1 :: lower) k r := by
  induction k generalizing r with
  | zero =>
    have hnil : polyXorFront (polyMul [] (1 :: lower)) ρ = ρ := by
      simpa [polyMul, hρ] using zeros_polyXorFront ρ
    constructor
    · rintro ⟨q, hq, h⟩
      rw [List.length_eq_zero_iff.mp hq] at h
      exact hnil.symm.trans h
    · intro h
      exact ⟨[], rfl, hnil.trans h⟩
  | succ k ih =>
    obtain ⟨lead, rest, rfl⟩ := List.exists_cons_of_length_eq_add_one (hr.trans (Nat.add_right_comm ..))
    have hrest : rest.length = k + lower.length := by
      rw [List.length_cons] at hr
      omega
    rw [isRemainder_succ_iff lead hrest, ih (by simpa using hrest), remLoop]

theorem isRemainder_remLoop {lower r : List GfValue} {k : Nat} (hr : r.length = k + lower.length) :
    IsRemainder lower k r (remLoop (1 :: lower) k r) :=
  (isRemainder_iff (by rw [remLoop_length, hr, Nat.add_sub_cancel_left]) hr).mpr rfl

/-- Settles O22: R90 divides `d(x) · x^n` through its first `d.length` coefficients. -/
theorem rsRemIsTheUniqueRemainder : Obligations.RsRemIsTheUniqueRemainder := by
  intro d lower
  have hdividend : (d ++ List.replicate lower.length 0).length = d.length + lower.length := by simp
  refine ⟨isRemainder_remLoop hdividend, rsRem_length d _, fun q ρ hq hρ h => ?_⟩
  exact (isRemainder_iff hρ hdividend).mp ⟨q, hq, h⟩

end Sys2Proof.Machine
end

section
/-! The values of polynomials over GF(256) (41_reed_solomon.md §2, §4): Horner's rule as an additive and multiplicative function of the
coefficients, the generator polynomials through their values and their coefficients, and their multiples. -/

namespace Sys2Proof.Machine

/-! ### Horner's rule -/

/-- One step of Horner's rule (R95). -/
def hornerStep (x acc b : GfValue) : GfValue := gfAdd (gfMul acc x) b

theorem hornerStep_gfAdd (x a b c d : GfValue) :
    hornerStep x (gfAdd a b) (gfAdd c d) = gfAdd (hornerStep x a c) (hornerStep x b d) := by
  rw [hornerStep, gfAdd_gfMul, gfAdd_gfAdd_gfAdd_comm]
  rfl

theorem polyEval_eq_foldl (c : List GfValue) (x : GfValue) : polyEval c x = c.foldl (hornerStep x) 0 := rfl

theorem polyEval_append_singleton (p : List GfValue) (b x : GfValue) :
    polyEval (p ++ [b]) x = gfAdd (gfMul (polyEval p x) x) b := by
  rw [polyEval_eq_foldl, List.foldl_append]
  rfl

@[simp] theorem polyEval_zero_cons (p : List GfValue) (x : GfValue) : polyEval (0 :: p) x = polyEval p x := by
  rw [polyEval_eq_foldl, List.foldl_cons, hornerStep, gfMul_zero_left, gfAdd_zero, polyEval_eq_foldl]

@[simp] theorem polyEval_singleton (c x : GfValue) : polyEval [c] x = c := by
  rw [polyEval_eq_foldl, List.foldl_cons, List.foldl_nil, hornerStep, gfMul_zero_left, zero_gfAdd]

@[simp] theorem polyEval_zeros_append (m : Nat) (p : List GfValue) (x : GfValue) :
    polyEval (List.replicate m 0 ++ p) x = polyEval p x := by
  induction m with
  | zero => rfl
  | succ m ih => rw [List.replicate_succ, List.cons_append, polyEval_zero_cons, ih]

@[simp] theorem polyEval_zeros (m : Nat) (x : GfValue) : polyEval (List.replicate m 0) x = 0 := by
  rw [← List.append_nil (List.replicate m _), polyEval_zeros_append]
  rfl

theorem foldl_hornerStep_polyXorFront (x : GfValue) {r p : List GfValue} (h : r.length = p.length) (a b : GfValue) :
    (polyXorFront r p).foldl (hornerStep x) (gfAdd a b) =
      gfAdd (r.foldl (hornerStep x) a) (p.foldl (hornerStep x) b) := by
  induction r generalizing p a b with
  | nil =>
    rw [List.length_nil, eq_comm, List.length_eq_zero_iff] at h
    rw [h]
    rfl
  | cons y r ih =>
    obtain _ | ⟨z, p⟩ := p
    · simp at h
    · rw [polyXorFront_cons, List.foldl_cons, hornerStep_gfAdd, ih (Nat.succ.inj h)]
      rfl

/-- The value of a sum. -/
theorem polyEval_polyXorFront {r p : List GfValue} (h : r.length = p.length) (x : GfValue) :
    polyEval (polyXorFront r p) x = gfAdd (polyEval r x) (polyEval p x) := foldl_hornerStep_polyXorFront x h 0 0

theorem polyEval_polyScale (c : GfValue) (p : List GfValue) (x : GfValue) :
    polyEval (polyScale c p) x = gfMul (polyEval p x) c := by
  rw [polyScale, polyEval_eq_foldl, List.foldl_map, ← gfMul_zero_left c]
  refine List.foldl_hom (gfMul · c) fun acc b => ?_
  rw [hornerStep, gfMul_right_comm, ← gfAdd_gfMul]

/-- The value of `p · x^m + r` at a power of α, `m` being the length of `r`. -/
theorem polyEval_append (p r : List GfValue) (i : Nat) :
    polyEval (p ++ r) (alphaPow i) =
      gfAdd (gfMul (polyEval p (alphaPow i)) (alphaPow (i * r.length))) (polyEval r (alphaPow i)) := by
  induction r using List.reverseRecOn with
  | nil =>
    rw [List.append_nil, List.length_nil, Nat.mul_zero, alphaPow_zero, gfMul_one]
    exact (gfAdd_zero _).symm
  | append_singleton r b ih =>
    rw [← List.append_assoc, polyEval_append_singleton, ih, polyEval_append_singleton, gfAdd_gfMul, gfMul_assoc,
      gfMul_alphaPow, List.length_append, List.length_singleton, Nat.mul_add_one, gfAdd_assoc]

/-- The value of a product at a power of α. -/
theorem polyEval_polyMul (q : List GfValue) {g : List GfValue} (hg : g ≠ []) (i : Nat) :
    polyEval (polyMul q g) (alphaPow i) = gfMul (polyEval q (alphaPow i)) (polyEval g (alphaPow i)) := by
  have hpos := List.length_pos_iff.mpr hg
  induction q with
  | nil => rw [polyMul, polyEval_zeros]; rfl
  | cons c q ih =>
    have hlen : (polyScale c g ++ List.replicate q.length 0).length = (0 :: polyMul q g).length := by
      rw [List.length_append, polyScale_length, List.length_replicate, List.length_cons, polyMul_length q hg]
      omega
    have hcons : polyEval (c :: q) (alphaPow i) = gfAdd (gfMul c (alphaPow (i * q.length))) (polyEval q (alphaPow i)) := by
      rw [← List.singleton_append, polyEval_append, polyEval_singleton]
    rw [polyMul, polyEval_polyXorFront hlen, polyEval_zero_cons, ih, polyEval_append, List.length_replicate,
      polyEval_zeros, gfAdd_zero, polyEval_polyScale, hcons, gfAdd_gfMul, gfMul_comm (polyEval g _) c, gfMul_right_comm]

/-! ### The generator polynomials (41_reed_solomon.md R87, R89) -/

/-- One factor of R87, read through values. -/
theorem polyEval_genPolyStep (g : List GfValue) (i : Nat) (x : GfValue) :
    polyEval (genPolyStep g i) x = gfMul (polyEval g x) (gfAdd x (alphaPow i)) := by
  rw [genPolyStep, polyEval_polyXorFront (by simp), polyEval_append_singleton, gfAdd_zero, polyEval_zero_cons,
    polyEval_polyScale, ← gfMul_gfAdd]

theorem polyEval_genPoly_succ (n : Nat) (x : GfValue) :
    polyEval (genPoly (n + 1)) x = gfMul (polyEval (genPoly n) x) (gfAdd x (alphaPow n)) := by
  rw [genPoly_succ, polyEval_genPolyStep]

/-- The roots of the generator polynomial of degree `n` (R89 (e)). -/
theorem polyEval_genPoly_root {n i : Nat} (hi : i < n) : polyEval (genPoly n) (alphaPow i) = 0 := by
  induction n with
  | zero => exact absurd hi (Nat.not_lt_zero i)
  | succ n ih =>
    rw [polyEval_genPoly_succ]
    rcases Nat.lt_succ_iff_lt_or_eq.mp hi with hi | rfl
    · rw [ih hi, gfMul_zero_left]
    · rw [gfAdd_self, gfMul_zero_right]

/-- The generator polynomials are monic. -/
theorem genPoly_eq_cons (n : Nat) : ∃ lower, genPoly n = 1 :: lower ∧ lower.length = n := by
  induction n with
  | zero => exact ⟨[], rfl, rfl⟩
  | succ n ih =>
    obtain ⟨lower, hg, hlen⟩ := ih
    refine ⟨polyXorFront (lower ++ [0]) (polyScale (alphaPow n) (1 :: lower)), ?_, by simp [hlen]⟩
    rw [genPoly_succ, hg, genPolyStep, List.cons_append, polyXorFront_cons, gfAdd_zero]

/-- The coefficient of `genPoly n` at list index `j`, which is that of x^(n-j); 0 beyond the list. -/
def genCoeff (n j : Nat) : GfValue := (genPoly n).getD j 0

theorem getElem?_genPoly {n j : Nat} (hj : j ≤ n) : (genPoly n)[j]? = some (genCoeff n j) := by
  have hlen : j < (genPoly n).length := by rw [genPoly_length]; omega
  rw [genCoeff, List.getD_eq_getElem?_getD, List.getElem?_eq_getElem hlen, Option.getD_some]

theorem genCoeff_of_lt {n j : Nat} (hj : n < j) : genCoeff n j = 0 :=
  List.getD_eq_default _ _ (by rw [genPoly_length]; omega)

@[simp] theorem genCoeff_zero (n : Nat) : genCoeff n 0 = 1 := by
  obtain ⟨lower, hg, -⟩ := genPoly_eq_cons n
  rw [genCoeff, hg]
  rfl

/-- The factor x - α^n adds α^n times each coefficient to the next. -/
theorem genCoeff_succ_succ (n j : Nat) :
    genCoeff (n + 1) (j + 1) = gfAdd (genCoeff n (j + 1)) (gfMul (genCoeff n j) (alphaPow n)) := by
  have hfront : ∀ r p : List GfValue, p.length ≤ r.length →
      (polyXorFront r p).getD (j + 1) 0 = gfAdd (r.getD (j + 1) 0) (p.getD (j + 1) 0) := by
    intro r p hlen
    rw [List.getD_eq_getElem?_getD, polyXorFront_getElem?, List.getD_eq_getElem?_getD (l := r)]
    rcases Nat.lt_or_ge (j + 1) r.length with hj | hj
    · rw [List.getElem?_eq_getElem hj]
      rfl
    · rw [List.getElem?_eq_none hj, List.getD_eq_default _ _ (hlen.trans hj)]
      rfl
  have hscale : (polyScale (alphaPow n) (genPoly n)).getD j 0 = gfMul (genCoeff n j) (alphaPow n) := by
    rw [polyScale, ← gfMul_zero_left (alphaPow n), List.getD_map]
    rfl
  rw [genCoeff, genPoly_succ, genPolyStep, hfront _ _ (by simp), List.getD_cons_succ, hscale]
  exact congrArg (gfAdd · _) (getD_append_zeros (genPoly n) 1 (j + 1))

/-- The constant term (R89 (c)). -/
theorem genCoeff_self (n : Nat) : genCoeff n n = alphaPow (n * (n - 1) / 2) := by
  induction n with
  | zero => rfl
  | succ n ih =>
    rw [genCoeff_succ_succ, genCoeff_of_lt (Nat.lt_succ_self n), ih, zero_gfAdd, gfMul_alphaPow, Nat.triangle_succ]

/-! ### No coefficient is 0 (R89 (d))

The coefficients are Gaussian binomials times powers of α: two neighbours satisfy
`c (n, k + 1) · (α^(k+1) + 1) = c (n, k) · (α^n + α^k)`, whose right factor is not 0 for k < n ≤ 254. -/

/-- A field element under a name that does not have the arithmetic of bit vectors. -/
def GfElem : Type := GfValue

/-- The field as a commutative ring of Mathlib, for the one identity below. -/
@[reducible] def gfCommRing : CommRing GfElem where
  add := gfAdd
  add_assoc := gfAdd_assoc
  zero := (0 : GfValue)
  zero_add := zero_gfAdd
  add_zero := gfAdd_zero
  nsmul := @nsmulRec GfElem ⟨(0 : GfValue)⟩ ⟨gfAdd⟩
  neg := id
  zsmul := @zsmulRec GfElem ⟨(0 : GfValue)⟩ ⟨gfAdd⟩ ⟨id⟩ (@nsmulRec GfElem ⟨(0 : GfValue)⟩ ⟨gfAdd⟩)
  neg_add_cancel := gfAdd_self
  add_comm := gfAdd_comm
  mul := gfMul
  left_distrib := gfMul_gfAdd
  right_distrib := gfAdd_gfMul
  zero_mul := gfMul_zero_left
  mul_zero := gfMul_zero_right
  mul_assoc := gfMul_assoc
  one := (1 : GfValue)
  one_mul a := (gfMul_comm 1 a).trans (gfMul_one a)
  mul_one := gfMul_one
  mul_comm := gfMul_comm

/-- The induction step of the ratio of neighbours, in characteristic 2: `q` for α, `a` for α^n and `b` for α^(k-1). -/
theorem neighbour_ratio_step {R : Type} [CommRing R] (htwo : (1 : R) + 1 = 0) {q a b c₀ c₁ c₂ : R}
    (h₁ : c₂ * (q * (q * b) + 1) = c₁ * (a + q * b)) (h₀ : c₁ * (q * b + 1) = c₀ * (a + b)) :
    (c₂ + c₁ * a) * (q * (q * b) + 1) = (c₁ + c₀ * a) * (q * a + q * b) := by
  linear_combination h₁ + a * q * h₀ + c₁ * a * (1 - q) * htwo

/-- The same over GF(256). -/
theorem gf_neighbour_ratio_step {q a b c₀ c₁ c₂ : GfValue}
    (h₁ : gfMul c₂ (gfAdd (gfMul q (gfMul q b)) 1) = gfMul c₁ (gfAdd a (gfMul q b)))
    (h₀ : gfMul c₁ (gfAdd (gfMul q b) 1) = gfMul c₀ (gfAdd a b)) :
    gfMul (gfAdd c₂ (gfMul c₁ a)) (gfAdd (gfMul q (gfMul q b)) 1) =
      gfMul (gfAdd c₁ (gfMul c₀ a)) (gfAdd (gfMul q a) (gfMul q b)) :=
  @neighbour_ratio_step GfElem gfCommRing (gfAdd_self 1) q a b c₀ c₁ c₂ h₁ h₀

theorem genCoeff_ratio (n k : Nat) :
    gfMul (genCoeff n (k + 1)) (gfAdd (alphaPow (k + 1)) 1) = gfMul (genCoeff n k) (gfAdd (alphaPow n) (alphaPow k)) := by
  induction n generalizing k with
  | zero =>
    rw [genCoeff_of_lt (Nat.succ_pos k), gfMul_zero_left]
    rcases k with _ | k
    · rw [gfAdd_self, gfMul_zero_right]
    · rw [genCoeff_of_lt (Nat.succ_pos k), gfMul_zero_left]
  | succ n ih =>
    have hsucc : ∀ m, alphaPow (m + 1) = gfMul (alphaPow 1) (alphaPow m) := fun m => by
      rw [gfMul_alphaPow, Nat.add_comm]
    rcases k with _ | k
    · have hone : alphaPow 0 = gfMul (alphaPow 1) (alphaPow 254) := by rw [gfMul_alphaPow]; rfl
      have hstep := gf_neighbour_ratio_step (q := alphaPow 1) (a := alphaPow n) (b := alphaPow 254) (c₀ := 0)
        (c₁ := genCoeff n 0) (c₂ := genCoeff n 1) (by rw [← hone, ← hsucc, ih]) (by
          rw [← hone, alphaPow_zero, gfAdd_self, gfMul_zero_right, gfMul_zero_left])
      rw [genCoeff_zero]
      rwa [← hone, ← hsucc, ← hsucc, ← genCoeff_succ_succ, gfMul_zero_left, gfAdd_zero, genCoeff_zero] at hstep
    · have hstep := gf_neighbour_ratio_step (q := alphaPow 1) (a := alphaPow n) (b := alphaPow k) (c₀ := genCoeff n k)
        (c₁ := genCoeff n (k + 1)) (c₂ := genCoeff n (k + 2)) (by rw [← hsucc, ← hsucc, ih]) (by rw [← hsucc, ih])
      rwa [← hsucc, ← hsucc, ← hsucc, ← genCoeff_succ_succ, ← genCoeff_succ_succ] at hstep

theorem genCoeff_ne_zero {n k : Nat} (hk : k ≤ n) (hn : n ≤ 254) : genCoeff n k ≠ 0 := by
  induction k with
  | zero =>
    rw [genCoeff_zero]
    exact alphaPow_ne_zero 0
  | succ k ih =>
    intro hzero
    have hratio := genCoeff_ratio n k
    rw [hzero, gfMul_zero_left, eq_comm, gfMul_eq_zero_iff, gfAdd_eq_zero_iff] at hratio
    rcases hratio with hprev | hpow
    · exact ih (by omega) hprev
    · have hnk := alphaPow_injOn (by omega) (by omega) hpow
      omega

/-! ### The value at a power of α as a sum (R95) -/

/-- The summand of the coefficient at list index `t` in the value of `c` at α^i. -/
def valueTerm (c : List GfValue) (i t : Nat) : GfValue := gfMul (c.getD t 0) (alphaPow (i * (c.length - 1 - t)))

theorem valueTerm_append_of_lt {c : List GfValue} (b : GfValue) (i : Nat) {t : Nat} (ht : t < c.length) :
    valueTerm (c ++ [b]) i t = gfMul (valueTerm c i t) (alphaPow i) := by
  have hexp : i * (c.length + 1 - 1 - t) = i * (c.length - 1 - t) + i := by
    rw [← Nat.mul_succ]
    congr 1
    omega
  rw [valueTerm, List.getD_append _ _ _ _ ht, List.length_append, List.length_singleton, hexp, ← gfMul_alphaPow,
    ← gfMul_assoc]
  rfl

theorem valueTerm_append_last (c : List GfValue) (b : GfValue) (i : Nat) : valueTerm (c ++ [b]) i c.length = b := by
  rw [valueTerm, List.getD_append_right _ _ _ _ le_rfl, Nat.sub_self, List.getD_cons_zero, List.length_append,
    List.length_singleton, Nat.add_sub_cancel, Nat.sub_self, Nat.mul_zero, alphaPow_zero, gfMul_one]

/-- Horner's rule is the sum of the terms: one more codeword multiplies the sum so far by α^i. -/
theorem polyEval_eq_sum (c : List GfValue) (i : Nat) :
    polyEval c (alphaPow i) = (List.range c.length).foldl (fun acc t => gfAdd acc (valueTerm c i t)) 0 := by
  induction c using List.reverseRecOn with
  | nil => rfl
  | append_singleton c b ih =>
    have hshift : (List.range c.length).foldl (fun acc t => gfAdd acc (valueTerm (c ++ [b]) i t)) 0 =
        gfMul (polyEval c (alphaPow i)) (alphaPow i) := by
      rw [ih, ← List.foldl_hom (gfMul · (alphaPow i))
        (g₂ := fun acc t => gfAdd acc (gfMul (valueTerm c i t) (alphaPow i))) fun acc t => (gfAdd_gfMul ..).symm,
        gfMul_zero_left]
      exact List.foldl_ext _ _ _ fun acc t ht => by rw [valueTerm_append_of_lt b i (List.mem_range.mp ht)]
    rw [polyEval_append_singleton, List.length_append, List.length_singleton, List.range_succ, List.foldl_append,
      hshift, List.foldl_cons, List.foldl_nil, valueTerm_append_last]

theorem getElem?_syndromes (c : List GfValue) {n i : Nat} (hi : i < n) :
    (syndromes c n)[i]? = some (polyEval c (alphaPow i)) := by
  rw [syndromes, List.getElem?_map, List.getElem?_range hi]
  rfl

/-! ### The obligations -/

/-- Settles O18: each iteration of R87 multiplies the value by its factor. -/
theorem genPolyIsProductOfFactors : Obligations.GenPolyIsProductOfFactors := by
  intro n x
  induction n with
  | zero => exact polyEval_singleton 1 x
  | succ n ih => rw [polyEval_genPoly_succ, ih, List.range_succ, List.foldl_append, List.foldl_cons, List.foldl_nil]

/-- Settles O19: the constant term is the product of the α^i, whose exponents add up to n(n-1)/2. -/
theorem genPolyDegreeMonicConstantRoots : Obligations.GenPolyDegreeMonicConstantRoots := by
  intro n _ _
  refine ⟨genPoly_length n, ?_, ?_, fun i hi => polyEval_genPoly_root hi⟩
  · rw [getElem?_genPoly (Nat.zero_le n), genCoeff_zero]
  · rw [getElem?_genPoly le_rfl, genCoeff_self]

/-- Settles O20, by the ratio of neighbouring coefficients. -/
theorem genPolyHasNoZeroCoefficient : Obligations.GenPolyHasNoZeroCoefficient := by
  intro n hn c hc
  obtain ⟨j, hj, rfl⟩ := List.getElem_of_mem hc
  have hle : j ≤ n := by rw [genPoly_length] at hj; omega
  have hcoeff := getElem?_genPoly hle
  rw [List.getElem?_eq_getElem hj, Option.some.injEq] at hcoeff
  rw [hcoeff]
  exact genCoeff_ne_zero hle hn

/-- Settles O25: the syndrome is the value at α^i, as a sum. -/
theorem syndromeIsTheSumOfPowers : Obligations.SyndromeIsTheSumOfPowers :=
  fun c _ i hi _ => (getElem?_syndromes c hi).trans (congrArg some (polyEval_eq_sum c i))

end Sys2Proof.Machine
end

section
/-! Multiples of a generator polynomial (41_reed_solomon.md R94, R97): the remainder by it vanishes exactly when its roots are roots of the
dividend, so dividing and evaluating test the same thing. -/

namespace Sys2Proof.Machine

/-! ### Values of quotient and remainder -/

/-- The value of `q · g + ρ` for a monic `g` of as many lower coefficients as `ρ` has. -/
theorem polyEval_quotient_remainder {q lower ρ : List GfValue} {k : Nat} (hq : q.length = k)
    (hρ : ρ.length = lower.length) (i : Nat) :
    polyEval (polyXorFront (polyMul q (1 :: lower)) (List.replicate k 0 ++ ρ)) (alphaPow i) =
      gfAdd (gfMul (polyEval q (alphaPow i)) (polyEval (1 :: lower) (alphaPow i))) (polyEval ρ (alphaPow i)) := by
  have hmonic : 1 :: lower ≠ [] := List.cons_ne_nil _ _
  have hlen : (polyMul q (1 :: lower)).length = (List.replicate k 0 ++ ρ).length := by
    rw [polyMul_length q hmonic, List.length_append, List.length_replicate, hq, hρ]
    rfl
  rw [polyEval_polyXorFront hlen, polyEval_polyMul q hmonic, polyEval_zeros_append]

theorem polyEval_linear (c x : GfValue) : polyEval [1, c] x = gfAdd x c := by
  rw [← List.singleton_append, polyEval_append_singleton, polyEval_singleton, gfMul_comm, gfMul_one]

/-- A polynomial of degree below `m` with `m` distinct roots is 0: divide by the factor of one root, and the quotient has the others. -/
theorem eq_zeros_of_roots {p : List GfValue} {m : Nat} (hp : p.length = m) (hm : m ≤ 255)
    (hroots : ∀ i, i < m → polyEval p (alphaPow i) = 0) : p = List.replicate m 0 := by
  induction m generalizing p with
  | zero => exact List.length_eq_zero_iff.mp hp
  | succ m ih =>
    obtain ⟨q, hq, hdiv⟩ := isRemainder_remLoop (lower := [alphaPow m]) hp
    obtain ⟨ρ, hρ⟩ : ∃ ρ, remLoop [1, alphaPow m] m p = [ρ] :=
      List.length_eq_one_iff.mp (by rw [remLoop_length, hp, Nat.add_sub_cancel_left])
    rw [hρ] at hdiv
    have hvalue : ∀ i, polyEval p (alphaPow i) =
        gfAdd (gfMul (polyEval q (alphaPow i)) (gfAdd (alphaPow i) (alphaPow m))) ρ := fun i => by
      rw [← hdiv, polyEval_quotient_remainder (lower := [alphaPow m]) (ρ := [ρ]) hq rfl, polyEval_linear, polyEval_singleton]
    have hρzero : ρ = 0 := by
      have hroot := hroots m (Nat.lt_succ_self m)
      rwa [hvalue, gfAdd_self, gfMul_zero_right, zero_gfAdd] at hroot
    have hqzero : q = List.replicate m 0 := ih hq (by omega) fun i hi => by
      have hroot := hroots i (by omega)
      rw [hvalue, hρzero, gfAdd_zero, gfMul_eq_zero_iff, gfAdd_eq_zero_iff] at hroot
      refine hroot.resolve_right fun hpow => ?_
      have him := alphaPow_injOn (by omega) (by omega) hpow
      omega
    rw [← hdiv, hqzero, hρzero, zeros_polyMul m (List.cons_ne_nil _ _)]
    exact (polyXorFront_append_zeros _ _ 1).trans (polyXorFront_zeros _ m)

/-! ### Division by a generator polynomial -/

/-- At the roots of the divisor the remainder has the values of the dividend. -/
theorem polyEval_remLoop_genPoly {r : List GfValue} {k n i : Nat} (hr : r.length = k + n) (hi : i < n) :
    polyEval (remLoop (genPoly n) k r) (alphaPow i) = polyEval r (alphaPow i) := by
  obtain ⟨lower, hg, rfl⟩ := genPoly_eq_cons n
  have hroot := polyEval_genPoly_root hi
  rw [hg] at hroot ⊢
  obtain ⟨q, hq, hdiv⟩ := isRemainder_remLoop hr
  have hρ : (remLoop (1 :: lower) k r).length = lower.length := by rw [remLoop_length, hr, Nat.add_sub_cancel_left]
  conv_rhs => rw [← hdiv, polyEval_quotient_remainder hq hρ, hroot, gfMul_zero_right, zero_gfAdd]

theorem remLoop_genPoly_eq_zeros_iff {r : List GfValue} {k n : Nat} (hr : r.length = k + n) (hn : n ≤ 254) :
    remLoop (genPoly n) k r = List.replicate n 0 ↔ ∀ i, i < n → polyEval r (alphaPow i) = 0 := by
  refine ⟨fun h i hi => ?_, fun h => eq_zeros_of_roots ?_ (by omega) fun i hi => ?_⟩
  · rw [← polyEval_remLoop_genPoly hr hi, h, polyEval_zeros]
  · rw [remLoop_length, hr, Nat.add_sub_cancel_left]
  · rw [polyEval_remLoop_genPoly hr hi, h i hi]

theorem rsRem_genPoly (d : List GfValue) (n : Nat) :
    rsRem d (genPoly n) = remLoop (genPoly n) d.length (d ++ List.replicate n 0) := by
  rw [rsRem, genPoly_length, Nat.add_sub_cancel]

/-- The value of `d(x) · x^n` at a power of α. -/
theorem polyEval_append_zeros (d : List GfValue) (n i : Nat) :
    polyEval (d ++ List.replicate n 0) (alphaPow i) = gfMul (polyEval d (alphaPow i)) (alphaPow (i * n)) := by
  rw [polyEval_append, polyEval_zeros, gfAdd_zero, List.length_replicate]

theorem polyEval_rsRem_genPoly (d : List GfValue) {n i : Nat} (hi : i < n) :
    polyEval (rsRem d (genPoly n)) (alphaPow i) = gfMul (polyEval d (alphaPow i)) (alphaPow (i * n)) := by
  rw [rsRem_genPoly, polyEval_remLoop_genPoly (by simp) hi, polyEval_append_zeros]

/-- No codewords are left over exactly when the data vanish at all roots: x^n is not 0 there. -/
theorem rsRem_genPoly_eq_zeros_iff (d : List GfValue) {n : Nat} (hn : n ≤ 254) :
    rsRem d (genPoly n) = List.replicate n 0 ↔ ∀ i, i < n → polyEval d (alphaPow i) = 0 := by
  rw [rsRem_genPoly, remLoop_genPoly_eq_zeros_iff (by simp) hn]
  simp only [polyEval_append_zeros, gfMul_eq_zero_iff, alphaPow_ne_zero, or_false]

/-- Data with their EC codewords vanish at all roots (R94). -/
theorem polyEval_data_with_ec (d : List GfValue) {n i : Nat} (hi : i < n) :
    polyEval (d ++ rsRem d (genPoly n)) (alphaPow i) = 0 := by
  rw [polyEval_append, rsRem_length, genPoly_length, Nat.add_sub_cancel, polyEval_rsRem_genPoly d hi, gfAdd_self]

theorem syndromes_eq_zero_iff (c : List GfValue) (n : Nat) :
    (∀ x ∈ syndromes c n, x = 0) ↔ ∀ i, i < n → polyEval c (alphaPow i) = 0 := by
  simp only [syndromes, List.forall_mem_map, List.mem_range]

/-- Settles O26: without a remainder the quotient by g_n is the factor, and a multiple of g_n has its roots. -/
theorem syndromesVanishExactlyOnMultiples : Obligations.SyndromesVanishExactlyOnMultiples := by
  intro c n hn
  rw [syndromes_eq_zero_iff]
  constructor
  · intro hroots
    have hlen : (List.replicate n 0 ++ c).length = c.length + n := by
      rw [List.length_append, List.length_replicate, Nat.add_comm]
    have hzeros := (remLoop_genPoly_eq_zeros_iff hlen hn).mpr fun i hi => by rw [polyEval_zeros_append, hroots i hi]
    obtain ⟨lower, hg, rfl⟩ := genPoly_eq_cons n
    obtain ⟨q, hq, hdiv⟩ := isRemainder_remLoop hlen
    rw [← hg, hzeros, List.replicate_append_replicate, polyXorFront_zeros] at hdiv
    exact ⟨lower.length, q, hdiv⟩
  · rintro ⟨m, q, hmul⟩ i hi
    have hne : genPoly n ≠ [] := List.ne_nil_of_length_pos (by rw [genPoly_length]; omega)
    rw [← polyEval_zeros_append m, ← hmul, polyEval_polyMul q hne, polyEval_genPoly_root hi, gfMul_zero_right]

/-! ### RS.DIV and RS.SYN under the invariant -/

theorem allZero_iff (vs : List Byte) : allZero vs = true ↔ ∀ x ∈ vs, x = 0 := by
  simp only [allZero, List.all_eq_true, zeroOf, beq_iff_eq]

theorem allZero_iff_eq_zeros {vs : List Byte} {n : Nat} (hlen : vs.length = n) :
    allZero vs = true ↔ vs = List.replicate n 0 := by
  rw [allZero_iff, List.eq_replicate_iff, and_iff_right hlen]

/-- The state that an RS.DIV of `k` codewords leaves (R92). -/
def afterRsDiv (k : Nat) (s : State) : State := writeEc k (rsRem (msgPrefix s k) (generator s)) s

theorem exec_rsDiv_of_check {k : BitVec 16} {s : State} (hc : operandCheck (.rsDiv k) s = none) :
    exec (.rsDiv k) s = .next (afterRsDiv k.toNat s) := by
  rw [exec_rsDiv, hc, perform_none, afterRsDiv]

theorem rsRem_generator_length (d : List Byte) (s : State) : (rsRem d (generator s)).length = s.genN.toNat := by
  rw [rsRem_length, generator_length, Nat.add_sub_cancel]

theorem exec_rsSyn_of_check {n : Byte} {l : BitVec 16} {s : State} (hc : operandCheck (.rsSyn n l) s = none) :
    exec (.rsSyn n l) s = .next (writeSyndromes (syndromes (msgPrefix s l.toNat) n.toNat) s) := by
  rw [exec_rsSyn, hc, perform_none]

/-- After RS.DIV the first codewords of MSG are the data followed by what was written behind them. -/
theorem msgPrefix_writeEc {k n : Nat} {ec : List Byte} (hec : ec.length = n) (s : State) :
    msgPrefix (writeEc k ec s) (k + n) = msgPrefix s k ++ ec := by
  refine List.ext_getElem? fun j => ?_
  rcases Nat.lt_or_ge j k with hj | hj
  · rw [List.getElem?_append_left (by rwa [msgPrefix_length]), msgPrefix, msgPrefix, List.getElem?_map, List.getElem?_map,
      List.getElem?_range (by omega), List.getElem?_range hj, Option.map_some, Option.map_some,
      msgEntry_writeEc_of_outside hec s (.inl hj)]
  · obtain ⟨i, rfl⟩ := Nat.exists_eq_add_of_le hj
    rw [List.getElem?_append_right (by rwa [msgPrefix_length]), msgPrefix_length, Nat.add_sub_cancel_left]
    rcases Nat.lt_or_ge i n with hi | hi
    · rw [getElem?_eq_msgEntry_writeEc hec s k hi, msgPrefix, List.getElem?_map, List.getElem?_range (by omega)]
      rfl
    · rw [List.getElem?_eq_none (by rw [msgPrefix_length]; omega), List.getElem?_eq_none (by omega)]

/-- Dividing the data together with their EC codewords leaves nothing over: they vanish at the roots of the divisor (R94). -/
theorem afterRsDiv_twice_zero {s : State} (hgen : generator s = genPoly s.genN.toNat) (hn : s.genN.toNat ≤ 254) (k : Nat) :
    (afterRsDiv (k + s.genN.toNat) (afterRsDiv k s)).zero = true := by
  have hdata : msgPrefix (afterRsDiv k s) (k + s.genN.toNat) =
      msgPrefix s k ++ rsRem (msgPrefix s k) (genPoly s.genN.toNat) := by
    rw [afterRsDiv, msgPrefix_writeEc (rsRem_generator_length _ s), hgen]
  refine (allZero_iff_eq_zeros (rsRem_generator_length _ (afterRsDiv k s))).mpr ?_
  rw [hdata]
  change rsRem _ (generator s) = List.replicate s.genN.toNat 0
  rw [hgen, rsRem_genPoly_eq_zeros_iff _ hn]
  exact fun i hi => polyEval_data_with_ec _ hi

/-- Settles O23: both commands pass their checks, and the second leaves no remainder. -/
theorem codewordDividesWithoutRemainder : Obligations.CodewordDividesWithoutRemainder := by
  intro k k' s h hvalid hk' hfits
  obtain ⟨-, hmax, hgen⟩ := h.hasGenerator hvalid
  obtain ⟨-, hn, -, -⟩ := h.params
  have hcheck : operandCheck (.rsDiv k) s = none := rsDivCheck_eq_none_iff.mpr ⟨hvalid, by omega⟩
  have hcheck' : operandCheck (.rsDiv k') (afterRsDiv k.toNat s) = none :=
    (operandCheck_congr (.rsDiv k') (s := s) rfl rfl rfl).trans (rsDivCheck_eq_none_iff.mpr ⟨hvalid, by omega⟩)
  have hzero := afterRsDiv_twice_zero hgen (hmax.trans hn) k.toNat
  rw [← hk'] at hzero
  refine ⟨_, _, exec_rsDiv_of_check hcheck, exec_rsDiv_of_check hcheck', hzero, ?_⟩
  rw [← hk']
  exact (writeEc_zero_iff (rsRem_generator_length _ (afterRsDiv k.toNat s)) _ k'.toNat).mp hzero

/-- Settles O27: both commands test whether the codewords vanish at the roots of the generator polynomial. -/
theorem syndromeTestAgreesWithDivision : Obligations.SyndromeTestAgreesWithDivision := by
  intro l s h hvalid hfits
  obtain ⟨hpos, hmax, hgen⟩ := h.hasGenerator hvalid
  obtain ⟨-, hn, -, -⟩ := h.params
  have hne : s.genN ≠ 0 := by
    rintro hzero
    simp [hzero] at hpos
  have hsyn : operandCheck (.rsSyn s.genN l) s = none := rsSynCheck_eq_none_iff.mpr ⟨hne, hmax, by omega⟩
  have hdiv : operandCheck (.rsDiv l) s = none := rsDivCheck_eq_none_iff.mpr ⟨hvalid, hfits⟩
  refine ⟨hsyn, hdiv, _, _, exec_rsSyn_of_check hsyn, exec_rsDiv_of_check hdiv, ?_⟩
  rw [writeSyndromes_zero, afterRsDiv, writeEc_zero, Bool.eq_iff_iff, allZero_iff, syndromes_eq_zero_iff,
    allZero_iff_eq_zeros (rsRem_generator_length _ s), hgen, rsRem_genPoly_eq_zeros_iff _ (hmax.trans hn)]

end Sys2Proof.Machine
end
